-- ==== Sys2Proof/Word.lean ====
section
/-! DEFINITION. The word types of the decoder: the 32-bit instruction word and address, the byte a host assembles a
word from, and the 5-bit specifier field of a word (R6 `WORD` and `AW` = 32; R31). -/

namespace Sys2Proof

/-- A 32-bit value: an instruction word `code`, an address, a branch displacement (R6: `WORD` = 32, `AW` = 32). -/
abbrev Word := BitVec 32

/-- One byte of a word as a host stores it (R22). -/
abbrev Byte := BitVec 8

/-- A 5-bit specifier field: one of 32 integer or floating-point registers of the decoded instruction set, or a trap
condition. The block turns the number into an operand and holds no such register (R13, R14, R15, R35). -/
abbrev RegNum := BitVec 5

end Sys2Proof
end

