-- ==== Sys2Proof/Machine/Fields.lean ====
section
/-! DEFINITION. The fields of an instruction word (R31), numbered with bit 0 least significant (R7), and the assembly
of a word from the four bytes a host reads at ascending addresses (R22). Every field is computed for every word; which
of them a handler uses depends on the primary opcode. -/

namespace Sys2Proof.Machine

/-- `opc = code[31:26]` (R31). -/
def opcOf (code : Word) : BitVec 6 := code.extractLsb' 26 6

/-- `rs = code[25:21]` (R31); add-immediate calls the same bits `rd`, `tw` its trap condition. -/
def rsOf (code : Word) : RegNum := code.extractLsb' 21 5

/-- `ra = code[20:16]` (R31). -/
def raOf (code : Word) : RegNum := code.extractLsb' 16 5

/-- `rb = code[15:11]` (R31). -/
def rbOf (code : Word) : RegNum := code.extractLsb' 11 5

/-- `imm = code[15:0]`, taken raw (R31, R33). -/
def immOf (code : Word) : BitVec 16 := code.extractLsb' 0 16

/-- `extOpc = code[10:1]` (R31). -/
def extOpcOf (code : Word) : BitVec 10 := code.extractLsb' 1 10

/-- `rc = code[0]` (R31). -/
def rcOf (code : Word) : Bool := code.getLsbD 0

/-- `sel = code[5:1] = extOpc[4:0]` (R31). -/
def selOf (code : Word) : BitVec 5 := code.extractLsb' 1 5

/-- `OE = code[10] = extOpc[9]` (R31). -/
def oeOf (code : Word) : Bool := code.getLsbD 10

/-- `idx4 = code[9:6] = extOpc[8:5]` (R31). -/
def idx4Of (code : Word) : BitVec 4 := code.extractLsb' 6 4

/-- `idx5 = code[10:6] = extOpc[9:5]` (R31). -/
def idx5Of (code : Word) : BitVec 5 := code.extractLsb' 6 5

/-- `LI24 = code[25:2]` (R31). -/
def li24Of (code : Word) : BitVec 24 := code.extractLsb' 2 24

/-- `AA = code[1]` (R31). -/
def aaOf (code : Word) : Bool := code.getLsbD 1

/-- `LK = code[0]` (R31). -/
def lkOf (code : Word) : Bool := code.getLsbD 0

/-- The word a host assembles from the bytes at ascending addresses `A`, `A+1`, `A+2`, `A+3`: big-endian (R22). -/
def wordOfBytes (b0 b1 b2 b3 : Byte) : Word :=
  b0.setWidth 32 <<< 24 ||| b1.setWidth 32 <<< 16 ||| b2.setWidth 32 <<< 8 ||| b3.setWidth 32

/-- The four bytes of a word at ascending addresses, the one that holds `code[31:24]` first (R22). -/
def bytesOfWord (code : Word) : List Byte :=
  [code.extractLsb' 24 8, code.extractLsb' 16 8, code.extractLsb' 8 8, code.extractLsb' 0 8]

end Sys2Proof.Machine
end

