-- ==== Sys2Proof/Config.lean ====
section
/-! DEFINITION. The parameters of the decoder (R6): the constants the document fixes, and the structure of the values
it leaves open (two primary opcode numbers and the three mnemonic ROMs). The spec's default values of the open ones are
in Machine/Roms.lean. Nothing here is a free value: no result of the block is undefined (93, U1 to U20). -/

namespace Sys2Proof

/-- R6 `OPC_ORI`: the primary opcode of or-immediate, fixed by the document. -/
def opcOri : BitVec 6 := 24

/-- R6 `OPC_EXT`: the primary opcode of the extended group, fixed by the document. -/
def opcExt : BitVec 6 := 31

/-- R6 `STEP`: how far one decode transaction advances the address cursor. -/
def cursorStep : Word := 4

/-- R6 `NPRIM`: the number of primary opcodes. -/
def primaryOpcodes : Nat := 64

/-- R6 `COL`: the width of the mnemonic column, in characters. -/
def mnemonicColumn : Nat := 8

/-- A mnemonic ROM (R17): an entry is a mnemonic or `none`, "an explicit empty sentinel". -/
abbrev Rom := List (Option String)

/-- The parameters that the document leaves open (R6, D3 to D5, U15, U16). -/
structure Config where
  /-- `OPC_ADDI`: the primary opcode of add-immediate. -/
  opcAddi : BitVec 6
  /-- `OPC_B`: the primary opcode of the unconditional branch. -/
  opcB : BitVec 6
  /-- `SUB_ROM`: the subtract family's mnemonics, 16 entries. -/
  subRom : Rom
  /-- `LOGIC_ROM`: the logical family's mnemonics; its size is not stated. -/
  logicRom : Rom
  /-- `LDST_ROM`: the indexed load/store family's mnemonics, 24 entries. -/
  ldstRom : Rom
  deriving DecidableEq, Repr

end Sys2Proof
end

