-- ==== Sys2Proof/Machine/Roms.lean ====
section
/-! DEFINITION. The three mnemonic ROMs with the spec's default contents (R17), the one way they are read (R18), the
constraints on the open parameters (R6, U15, U16), and the default parameters. The contents are constants of the design:
no action writes them (R17, R221, R225). -/

namespace Sys2Proof.Machine

/-- `rom(T, i)` (R18): `none` for an index beyond the end and for the empty sentinel, else the entry. -/
def rom (T : Rom) (i : Nat) : Option String :=
  match T[i]? with
  | some entry => entry
  | none => none

/-- `SUB_ROM`, 16 entries (R17). PRESUMED by the spec from general knowledge (D5; log 3). -/
def defaultSubRom : Rom :=
  [some "subfc", some "subf", none, some "neg",
   some "subfe", none, some "subfze", some "subfme",
   some "doz", none, none, some "abs",
   none, none, none, some "nabs"]

/-- `LOGIC_ROM` (R17), taken as 32 entries of which 16 to 31 are empty (D22; log 4). The entry `or` at index 13 is the
document's; the other contents are PRESUMED by the spec from general knowledge (D5; log 3). -/
def defaultLogicRom : Rom :=
  [some "and", some "andc", none, some "nor",
   none, none, none, none,
   some "eqv", some "xor", none, none,
   some "orc", some "or", some "nand", none] ++ List.replicate 16 none

/-- `LDST_ROM`, 24 entries (R17). PRESUMED by the spec from general knowledge (D5; log 3). -/
def defaultLdstRom : Rom :=
  [some "lwzx", some "lwzux", some "lbzx", some "lbzux",
   some "stwx", some "stwux", some "stbx", some "stbux",
   some "lhzx", some "lhzux", some "lhax", some "lhaux",
   some "sthx", some "sthux", none, none,
   some "lfsx", some "lfsux", some "lfdx", some "lfdux",
   some "stfsx", some "stfsux", some "stfdx", some "stfdux"]

/-- The default parameters (R6): `OPC_ADDI` = 14 (D3; log 1) and `OPC_B` = 18 (D4; log 2), PRESUMED by the spec from
general knowledge, and the default ROMs. -/
def defaultConfig : Config where
  opcAddi := 14
  opcB := 18
  subRom := defaultSubRom
  logicRom := defaultLogicRom
  ldstRom := defaultLdstRom

/-- A ROM entry that R18 allows: the empty sentinel, or a non-empty string of lower-case ASCII letters. -/
def romEntryOk : Option String → Bool
  | none => true
  | some m => m != "" && m.toList.all fun c => decide ('a' ≤ c) && decide (c ≤ 'z')

/-- The constraints on the parameters: four different handled opcodes (R6), ROMs of 16 and 24 entries, `or` at index 13
of the logical ROM, and every entry as R18 says (U15, U16). -/
def configOk (cfg : Config) : Bool :=
  cfg.opcAddi != cfg.opcB && cfg.opcAddi != opcOri && cfg.opcAddi != opcExt &&
    cfg.opcB != opcOri && cfg.opcB != opcExt &&
    cfg.subRom.length == 16 && cfg.ldstRom.length == 24 && rom cfg.logicRom 13 == some "or" &&
    cfg.subRom.all romEntryOk && cfg.logicRom.all romEntryOk && cfg.ldstRom.all romEntryOk

end Sys2Proof.Machine
end

