-- ==== Sys2Proof/Machine/Handlers.lean ====
section
/-! DEFINITION. The five handlers and the 64-entry dispatch ROM that names one for each primary opcode (R36, R71, R75),
and the numbers the extended-opcode router of primary opcode 31 tests (R37, R101, R102, R110). -/

namespace Sys2Proof.Machine

/-- The five handler names of R71. -/
inductive Handler where
  | addi
  | ori
  | branch
  | ext
  | illegal
  deriving DecidableEq, Repr

/-- Which handler a primary opcode has: one of the four handled ones, else `H_ILLEGAL` (R71, R75). -/
def handlerFor (cfg : Config) (opc : BitVec 6) : Handler :=
  if opc = cfg.opcAddi then .addi
  else if opc = opcOri then .ori
  else if opc = cfg.opcB then .branch
  else if opc = opcExt then .ext
  else .illegal

/-- `DISPATCH` (R71): one entry for each of the 64 primary opcodes. -/
def dispatchRom (cfg : Config) : List Handler :=
  (List.range primaryOpcodes).map fun n => handlerFor cfg (BitVec.ofNat 6 n)

/-- The look-up of R70, `DISPATCH[opc]`; it never fails, since the ROM has an entry for every opcode. -/
def dispatch (cfg : Config) (opc : BitVec 6) : Handler :=
  (dispatchRom cfg).getD opc.toNat .illegal

/-- Tier A's selector of the subtract family (R37, R101). -/
def selSubtract : BitVec 5 := 0x08

/-- Tier A's selector of the logical family (R37, R101). -/
def selLogical : BitVec 5 := 0x1C

/-- Tier A's selector of the indexed load/store family (R37, R101). -/
def selLoadStore : BitVec 5 := 0x17

/-- Tier B's one exact match, the extended opcode of `tw` (R102, R180). -/
def extOpcTw : BitVec 10 := 4

/-- The subtract family's two-operand indices, fixed by number and not read from the ROM (R110 (b)). -/
def twoOperandIndex (idx4 : BitVec 4) : Bool :=
  [3, 6, 7, 11, 15].contains idx4

/-- The logical family's index of `or`, where the move-register idiom applies (R130, R139). -/
def idxOr : BitVec 5 := 13

/-- The greatest index of the load/store family (R150). -/
def ldstLastIndex : Nat := 23

/-- The greatest index of the load/store family whose first operand is an integer register (R150). -/
def ldstLastInteger : Nat := 15

end Sys2Proof.Machine
end

