-- ==== Sys2Proof/Machine/Illegal.lean ====
section
/-! DEFINITION. The nine conditions IL1 to IL9 under which a word takes the illegal path (R40, R201). The labels are the
spec's, for prose and tests; the block does not output which one applied (D17; log 29), and a word that meets several is
given the first in the order of the family's tests (R203). -/

namespace Sys2Proof.Machine

/-- The causes of the illegal outcome (R40). -/
inductive IllegalCause where
  /-- No handler of its own for the primary opcode. -/
  | il1
  /-- Subtract family, empty ROM entry. -/
  | il2
  /-- Subtract family, two-operand index with a nonzero `rb`. -/
  | il3
  /-- Logical family, not the `mr` special case, empty ROM entry. -/
  | il4
  /-- Load/store family, index above 23. -/
  | il5
  /-- Load/store family, `rc = 1`. -/
  | il6
  /-- Load/store family, empty ROM entry. -/
  | il7
  /-- `tw` with `rc = 1`. -/
  | il8
  /-- Any other extended opcode of tier B. -/
  | il9
  deriving DecidableEq, Repr

/-- The move-register idiom's test, made before the logical ROM is read (R130, R139). -/
def isMoveIdiom (code : Word) (simplified : Bool) : Bool :=
  idx5Of code == idxOr && rsOf code == rbOf code && simplified

/-- The cause in the extended group (R40, IL2 to IL9), for a word whose primary opcode is 31. -/
def extIllegalCause (cfg : Config) (code : Word) (simplified : Bool) : Option IllegalCause :=
  if selOf code = selSubtract then
    if rom cfg.subRom (idx4Of code).toNat = none then some .il2
    else if twoOperandIndex (idx4Of code) && rbOf code != 0 then some .il3
    else none
  else if selOf code = selLogical then
    if isMoveIdiom code simplified then none
    else if rom cfg.logicRom (idx5Of code).toNat = none then some .il4
    else none
  else if selOf code = selLoadStore then
    if ldstLastIndex < (idx5Of code).toNat then some .il5
    else if rcOf code then some .il6
    else if rom cfg.ldstRom (idx5Of code).toNat = none then some .il7
    else none
  else if extOpcOf code = extOpcTw then
    if rcOf code then some .il8 else none
  else some .il9

/-- The cause of the illegal outcome of a word, or `none` for a word that is accepted (R40: "Everything not listed is
accepted"). -/
def illegalCause (cfg : Config) (code : Word) (simplified : Bool) : Option IllegalCause :=
  match dispatch cfg (opcOf code) with
  | .illegal => some .il1
  | .ext => extIllegalCause cfg code simplified
  | .addi | .ori | .branch => none

end Sys2Proof.Machine
end

