-- ==== Sys2Proof/Syntax.lean ====
section
/-! DEFINITION. The instructions: one constructor per row of spec/opcode_table.json, with the fields the row names. A
row is one accepted SPELLING of a word (R39): the four spellings of a subtract-family mnemonic are four constructors
(`Oe` for the suffix `o`, `Rc` for `.`), the simplified mnemonics are rows of their own, and the two rows spelled `mr`
are `mrOri` (or-immediate) and `mrOr` (logical family). Every word reads as exactly one of them under each value of
`simplified`; the words that take the illegal path read as `dcl` (R76). -/

namespace Sys2Proof

/-- One row of the opcode table with its operands. -/
inductive Instr where
  /-- Load-immediate, the simplified form of add-immediate, `li` (R81). -/
  | li (rd : RegNum) (imm : BitVec 16)
  /-- Add-immediate, general form, `addi` (R80). -/
  | addi (rd ra : RegNum) (imm : BitVec 16)
  /-- The simplified form of or-immediate with every field zero, `nop` (R83). -/
  | nop
  /-- Move-register, the simplified form of or-immediate with a zero immediate, `mr` (R84). -/
  | mrOri (rs ra : RegNum)
  /-- Or-immediate, general form, `ori` (R82). -/
  | ori (rs ra : RegNum) (imm : BitVec 16)
  /-- Branch relative, `b` (R92). -/
  | b (li24 : BitVec 24)
  /-- Branch relative and link, `bl` (R93). -/
  | bl (li24 : BitVec 24)
  /-- Branch absolute, `ba` (R94). -/
  | ba (li24 : BitVec 24)
  /-- Branch absolute and link, `bla` (R95). -/
  | bla (li24 : BitVec 24)
  /-- `subfc` (R111). -/
  | subfc (rs ra rb : RegNum)
  /-- `subfc.` (R111). -/
  | subfcRc (rs ra rb : RegNum)
  /-- `subfco` (R111). -/
  | subfcOe (rs ra rb : RegNum)
  /-- `subfco.` (R111). -/
  | subfcOeRc (rs ra rb : RegNum)
  /-- `subf` (R112). -/
  | subf (rs ra rb : RegNum)
  /-- `subf.` (R112). -/
  | subfRc (rs ra rb : RegNum)
  /-- `subfo` (R112). -/
  | subfOe (rs ra rb : RegNum)
  /-- `subfo.` (R112). -/
  | subfOeRc (rs ra rb : RegNum)
  /-- `neg` (R113). -/
  | neg (rs ra : RegNum)
  /-- `neg.` (R113). -/
  | negRc (rs ra : RegNum)
  /-- `nego` (R113). -/
  | negOe (rs ra : RegNum)
  /-- `nego.` (R113). -/
  | negOeRc (rs ra : RegNum)
  /-- `subfe` (R114). -/
  | subfe (rs ra rb : RegNum)
  /-- `subfe.` (R114). -/
  | subfeRc (rs ra rb : RegNum)
  /-- `subfeo` (R114). -/
  | subfeOe (rs ra rb : RegNum)
  /-- `subfeo.` (R114). -/
  | subfeOeRc (rs ra rb : RegNum)
  /-- `subfze` (R115). -/
  | subfze (rs ra : RegNum)
  /-- `subfze.` (R115). -/
  | subfzeRc (rs ra : RegNum)
  /-- `subfzeo` (R115). -/
  | subfzeOe (rs ra : RegNum)
  /-- `subfzeo.` (R115). -/
  | subfzeOeRc (rs ra : RegNum)
  /-- `subfme` (R116). -/
  | subfme (rs ra : RegNum)
  /-- `subfme.` (R116). -/
  | subfmeRc (rs ra : RegNum)
  /-- `subfmeo` (R116). -/
  | subfmeOe (rs ra : RegNum)
  /-- `subfmeo.` (R116). -/
  | subfmeOeRc (rs ra : RegNum)
  /-- `doz` (R117). -/
  | doz (rs ra rb : RegNum)
  /-- `doz.` (R117). -/
  | dozRc (rs ra rb : RegNum)
  /-- `dozo` (R117). -/
  | dozOe (rs ra rb : RegNum)
  /-- `dozo.` (R117). -/
  | dozOeRc (rs ra rb : RegNum)
  /-- `abs` (R118). -/
  | abs (rs ra : RegNum)
  /-- `abs.` (R118). -/
  | absRc (rs ra : RegNum)
  /-- `abso` (R118). -/
  | absOe (rs ra : RegNum)
  /-- `abso.` (R118). -/
  | absOeRc (rs ra : RegNum)
  /-- `nabs` (R119). -/
  | nabs (rs ra : RegNum)
  /-- `nabs.` (R119). -/
  | nabsRc (rs ra : RegNum)
  /-- `nabso` (R119). -/
  | nabsOe (rs ra : RegNum)
  /-- `nabso.` (R119). -/
  | nabsOeRc (rs ra : RegNum)
  /-- Move-register, the simplified form of `or` with both sources the same register, `mr` (R139). -/
  | mrOr (rs ra rb : RegNum)
  /-- Move-register, the simplified form of `or.`, `mr.` (R139). -/
  | mrOrRc (rs ra rb : RegNum)
  /-- `and` (R131). -/
  | and (rs ra rb : RegNum)
  /-- `and.` (R131). -/
  | andRc (rs ra rb : RegNum)
  /-- `andc` (R132). -/
  | andc (rs ra rb : RegNum)
  /-- `andc.` (R132). -/
  | andcRc (rs ra rb : RegNum)
  /-- `nor` (R133). -/
  | nor (rs ra rb : RegNum)
  /-- `nor.` (R133). -/
  | norRc (rs ra rb : RegNum)
  /-- `eqv` (R134). -/
  | eqv (rs ra rb : RegNum)
  /-- `eqv.` (R134). -/
  | eqvRc (rs ra rb : RegNum)
  /-- `xor` (R135). -/
  | xor (rs ra rb : RegNum)
  /-- `xor.` (R135). -/
  | xorRc (rs ra rb : RegNum)
  /-- `orc` (R136). -/
  | orc (rs ra rb : RegNum)
  /-- `orc.` (R136). -/
  | orcRc (rs ra rb : RegNum)
  /-- `or` (R137). -/
  | or (rs ra rb : RegNum)
  /-- `or.` (R137). -/
  | orRc (rs ra rb : RegNum)
  /-- `nand` (R138). -/
  | nand (rs ra rb : RegNum)
  /-- `nand.` (R138). -/
  | nandRc (rs ra rb : RegNum)
  /-- `lwzx` (R151). -/
  | lwzx (rs ra rb : RegNum)
  /-- `lwzux` (R152). -/
  | lwzux (rs ra rb : RegNum)
  /-- `lbzx` (R153). -/
  | lbzx (rs ra rb : RegNum)
  /-- `lbzux` (R154). -/
  | lbzux (rs ra rb : RegNum)
  /-- `stwx` (R155). -/
  | stwx (rs ra rb : RegNum)
  /-- `stwux` (R156). -/
  | stwux (rs ra rb : RegNum)
  /-- `stbx` (R157). -/
  | stbx (rs ra rb : RegNum)
  /-- `stbux` (R158). -/
  | stbux (rs ra rb : RegNum)
  /-- `lhzx` (R159). -/
  | lhzx (rs ra rb : RegNum)
  /-- `lhzux` (R160). -/
  | lhzux (rs ra rb : RegNum)
  /-- `lhax` (R161). -/
  | lhax (rs ra rb : RegNum)
  /-- `lhaux` (R162). -/
  | lhaux (rs ra rb : RegNum)
  /-- `sthx` (R163). -/
  | sthx (rs ra rb : RegNum)
  /-- `sthux` (R164). -/
  | sthux (rs ra rb : RegNum)
  /-- `lfsx` (R165). -/
  | lfsx (rs ra rb : RegNum)
  /-- `lfsux` (R166). -/
  | lfsux (rs ra rb : RegNum)
  /-- `lfdx` (R167). -/
  | lfdx (rs ra rb : RegNum)
  /-- `lfdux` (R168). -/
  | lfdux (rs ra rb : RegNum)
  /-- `stfsx` (R169). -/
  | stfsx (rs ra rb : RegNum)
  /-- `stfsux` (R170). -/
  | stfsux (rs ra rb : RegNum)
  /-- `stfdx` (R171). -/
  | stfdx (rs ra rb : RegNum)
  /-- `stfdux` (R172). -/
  | stfdux (rs ra rb : RegNum)
  /-- Trap-word; `rs` is the trap condition, `tw` (R180). -/
  | tw (rs ra rb : RegNum)
  /-- The illegal-instruction word, `dc.l` (R76). -/
  | dcl (code : Word)
  deriving DecidableEq, Repr

end Sys2Proof
end

