-- ==== Sys2Proof/WellFormed.lean ====
section
/-! DEFINITION. Which instructions a word can read as under a given value of `simplified`: the conditions under which
the general form, or the simplified form in its place, is chosen (R64, R39), and the illegal word (R40). The operand
widths are in the types. -/

namespace Sys2Proof

open Sys2Proof.Machine

/-- An instruction that the block reads under this value of `simplified`: `li` for `addi` with `ra = 0` (R80, R81), `nop`
and `mr` for `ori` with a zero immediate (R82 to R85), `mr` for `or` with equal sources (R137, R139), and `dcl` for the
words of the illegal path alone (R40, R76). -/
def Instr.wf (simplified : Bool) : Instr → Bool
  | .li _ _ => simplified
  | .addi _ ra _ => !(simplified && ra == 0)
  | .nop => simplified
  | .mrOri rs ra => simplified && !(rs == 0 && ra == 0)
  | .ori _ _ imm => !(simplified && imm == 0)
  | .b _ => true
  | .bl _ => true
  | .ba _ => true
  | .bla _ => true
  | .subfc _ _ _ => true
  | .subfcRc _ _ _ => true
  | .subfcOe _ _ _ => true
  | .subfcOeRc _ _ _ => true
  | .subf _ _ _ => true
  | .subfRc _ _ _ => true
  | .subfOe _ _ _ => true
  | .subfOeRc _ _ _ => true
  | .neg _ _ => true
  | .negRc _ _ => true
  | .negOe _ _ => true
  | .negOeRc _ _ => true
  | .subfe _ _ _ => true
  | .subfeRc _ _ _ => true
  | .subfeOe _ _ _ => true
  | .subfeOeRc _ _ _ => true
  | .subfze _ _ => true
  | .subfzeRc _ _ => true
  | .subfzeOe _ _ => true
  | .subfzeOeRc _ _ => true
  | .subfme _ _ => true
  | .subfmeRc _ _ => true
  | .subfmeOe _ _ => true
  | .subfmeOeRc _ _ => true
  | .doz _ _ _ => true
  | .dozRc _ _ _ => true
  | .dozOe _ _ _ => true
  | .dozOeRc _ _ _ => true
  | .abs _ _ => true
  | .absRc _ _ => true
  | .absOe _ _ => true
  | .absOeRc _ _ => true
  | .nabs _ _ => true
  | .nabsRc _ _ => true
  | .nabsOe _ _ => true
  | .nabsOeRc _ _ => true
  | .mrOr rs _ rb => simplified && rs == rb
  | .mrOrRc rs _ rb => simplified && rs == rb
  | .and _ _ _ => true
  | .andRc _ _ _ => true
  | .andc _ _ _ => true
  | .andcRc _ _ _ => true
  | .nor _ _ _ => true
  | .norRc _ _ _ => true
  | .eqv _ _ _ => true
  | .eqvRc _ _ _ => true
  | .xor _ _ _ => true
  | .xorRc _ _ _ => true
  | .orc _ _ _ => true
  | .orcRc _ _ _ => true
  | .or rs _ rb => !(simplified && rs == rb)
  | .orRc rs _ rb => !(simplified && rs == rb)
  | .nand _ _ _ => true
  | .nandRc _ _ _ => true
  | .lwzx _ _ _ => true
  | .lwzux _ _ _ => true
  | .lbzx _ _ _ => true
  | .lbzux _ _ _ => true
  | .stwx _ _ _ => true
  | .stwux _ _ _ => true
  | .stbx _ _ _ => true
  | .stbux _ _ _ => true
  | .lhzx _ _ _ => true
  | .lhzux _ _ _ => true
  | .lhax _ _ _ => true
  | .lhaux _ _ _ => true
  | .sthx _ _ _ => true
  | .sthux _ _ _ => true
  | .lfsx _ _ _ => true
  | .lfsux _ _ _ => true
  | .lfdx _ _ _ => true
  | .lfdux _ _ _ => true
  | .stfsx _ _ _ => true
  | .stfsux _ _ _ => true
  | .stfdx _ _ _ => true
  | .stfdux _ _ _ => true
  | .tw _ _ _ => true
  | .dcl code => (illegalCause defaultConfig code simplified).isSome

end Sys2Proof
end

