-- ==== Sys2Proof/Decode.lean ====
section
/-! DEFINITION. The instruction a word reads as (R36 to R39), total on every 32-bit word and both values of `simplified`;
the reading of a stream of bytes, total and rejecting a truncated word by name; and the encoder. The order of the tests
is that of R39. A word that takes the illegal path is no failure of decoding: it reads as `dcl`, the word itself (R76). -/

namespace Sys2Proof

open Sys2Proof.Machine

/-- The four spellings of a subtract-family mnemonic by `OE` and `rc` (R60, R110). -/
def bySuffix (oe rc : Bool) (plain withRc withOe withOeRc : Instr) : Instr :=
  match oe, rc with
  | false, false => plain
  | false, true => withRc
  | true, false => withOe
  | true, true => withOeRc

/-- The two spellings of a logical-family mnemonic by `rc` (R60, R130). -/
def byRc (rc : Bool) (plain withRc : Instr) : Instr :=
  if rc then withRc else plain

/-- Add-immediate: `li` before `addi` (R39 step 2, R80, R81). -/
def decodeAddi (code : Word) (simplified : Bool) : Instr :=
  if raOf code = 0 ∧ simplified then .li (rsOf code) (immOf code)
  else .addi (rsOf code) (raOf code) (immOf code)

/-- Or-immediate: `nop`, then `mr`, then `ori` (R39 step 3, R85). -/
def decodeOri (code : Word) (simplified : Bool) : Instr :=
  if raOf code = 0 ∧ rsOf code = 0 ∧ immOf code = 0 ∧ simplified then .nop
  else if immOf code = 0 ∧ simplified then .mrOri (rsOf code) (raOf code)
  else .ori (rsOf code) (raOf code) (immOf code)

/-- The unconditional branch: the mnemonic from `AA` and `LK` (R39 step 4, R90). -/
def decodeBranch (code : Word) : Instr :=
  match aaOf code, lkOf code with
  | false, false => .b (li24Of code)
  | false, true => .bl (li24Of code)
  | true, false => .ba (li24Of code)
  | true, true => .bla (li24Of code)

/-- The subtract family by its index, with the default ROM (R38, R110 to R120): a two-operand index takes a zero `rb`
only (IL3), and an index with no mnemonic is illegal (IL2). -/
def decodeSubtract (code : Word) : Instr :=
  let rs := rsOf code
  let ra := raOf code
  let rb := rbOf code
  if twoOperandIndex (idx4Of code) ∧ rb ≠ 0 then .dcl code
  else
    match (idx4Of code).toNat with
    | 0 => bySuffix (oeOf code) (rcOf code) (.subfc rs ra rb) (.subfcRc rs ra rb) (.subfcOe rs ra rb) (.subfcOeRc rs ra rb)
    | 1 => bySuffix (oeOf code) (rcOf code) (.subf rs ra rb) (.subfRc rs ra rb) (.subfOe rs ra rb) (.subfOeRc rs ra rb)
    | 3 => bySuffix (oeOf code) (rcOf code) (.neg rs ra) (.negRc rs ra) (.negOe rs ra) (.negOeRc rs ra)
    | 4 => bySuffix (oeOf code) (rcOf code) (.subfe rs ra rb) (.subfeRc rs ra rb) (.subfeOe rs ra rb) (.subfeOeRc rs ra rb)
    | 6 => bySuffix (oeOf code) (rcOf code) (.subfze rs ra) (.subfzeRc rs ra) (.subfzeOe rs ra) (.subfzeOeRc rs ra)
    | 7 => bySuffix (oeOf code) (rcOf code) (.subfme rs ra) (.subfmeRc rs ra) (.subfmeOe rs ra) (.subfmeOeRc rs ra)
    | 8 => bySuffix (oeOf code) (rcOf code) (.doz rs ra rb) (.dozRc rs ra rb) (.dozOe rs ra rb) (.dozOeRc rs ra rb)
    | 11 => bySuffix (oeOf code) (rcOf code) (.abs rs ra) (.absRc rs ra) (.absOe rs ra) (.absOeRc rs ra)
    | 15 => bySuffix (oeOf code) (rcOf code) (.nabs rs ra) (.nabsRc rs ra) (.nabsOe rs ra) (.nabsOeRc rs ra)
    | _ => .dcl code

/-- The logical family by its index, with the default ROM (R38, R130 to R140): the move-register idiom comes before the
look-up, and an index with no mnemonic is illegal (IL4). -/
def decodeLogical (code : Word) (simplified : Bool) : Instr :=
  let rs := rsOf code
  let ra := raOf code
  let rb := rbOf code
  if isMoveIdiom code simplified then byRc (rcOf code) (.mrOr rs ra rb) (.mrOrRc rs ra rb)
  else
    match (idx5Of code).toNat with
    | 0 => byRc (rcOf code) (.and rs ra rb) (.andRc rs ra rb)
    | 1 => byRc (rcOf code) (.andc rs ra rb) (.andcRc rs ra rb)
    | 3 => byRc (rcOf code) (.nor rs ra rb) (.norRc rs ra rb)
    | 8 => byRc (rcOf code) (.eqv rs ra rb) (.eqvRc rs ra rb)
    | 9 => byRc (rcOf code) (.xor rs ra rb) (.xorRc rs ra rb)
    | 12 => byRc (rcOf code) (.orc rs ra rb) (.orcRc rs ra rb)
    | 13 => byRc (rcOf code) (.or rs ra rb) (.orRc rs ra rb)
    | 14 => byRc (rcOf code) (.nand rs ra rb) (.nandRc rs ra rb)
    | _ => .dcl code

/-- The indexed load/store family by its index, with the default ROM (R38, R150 to R173): `rc` must be 0 (IL6), and an
index above 23 (IL5) or with no mnemonic (IL7) is illegal. -/
def decodeLoadStore (code : Word) : Instr :=
  let rs := rsOf code
  let ra := raOf code
  let rb := rbOf code
  if rcOf code then .dcl code
  else
    match (idx5Of code).toNat with
    | 0 => .lwzx rs ra rb
    | 1 => .lwzux rs ra rb
    | 2 => .lbzx rs ra rb
    | 3 => .lbzux rs ra rb
    | 4 => .stwx rs ra rb
    | 5 => .stwux rs ra rb
    | 6 => .stbx rs ra rb
    | 7 => .stbux rs ra rb
    | 8 => .lhzx rs ra rb
    | 9 => .lhzux rs ra rb
    | 10 => .lhax rs ra rb
    | 11 => .lhaux rs ra rb
    | 12 => .sthx rs ra rb
    | 13 => .sthux rs ra rb
    | 16 => .lfsx rs ra rb
    | 17 => .lfsux rs ra rb
    | 18 => .lfdx rs ra rb
    | 19 => .lfdux rs ra rb
    | 20 => .stfsx rs ra rb
    | 21 => .stfsux rs ra rb
    | 22 => .stfdx rs ra rb
    | 23 => .stfdux rs ra rb
    | _ => .dcl code

/-- Tier B: the exact match of `tw`, whose `rc` must be 0 (IL8), and the fallback (IL9) (R102, R180, R181). -/
def decodeTierB (code : Word) : Instr :=
  if extOpcOf code = extOpcTw ∧ rcOf code = false then .tw (rsOf code) (raOf code) (rbOf code)
  else .dcl code

/-- The extended group: tier A on the low five bits of the extended opcode, then tier B (R39 step 5, R101, R104). -/
def decodeExt (code : Word) (simplified : Bool) : Instr :=
  if selOf code = selSubtract then decodeSubtract code
  else if selOf code = selLogical then decodeLogical code simplified
  else if selOf code = selLoadStore then decodeLoadStore code
  else decodeTierB code

/-- The instruction that a word reads as, by its primary opcode (R36, R39, R70). -/
def decodeWord (code : Word) (simplified : Bool) : Instr :=
  match dispatch defaultConfig (opcOf code) with
  | .addi => decodeAddi code simplified
  | .ori => decodeOri code simplified
  | .branch => decodeBranch code
  | .ext => decodeExt code simplified
  | .illegal => .dcl code

/-- Why a stream of bytes gives no instruction. -/
inductive DecodeError where
  /-- Fewer than four bytes: "every instruction is exactly one 32-bit word" (R30). -/
  | truncated
  deriving DecidableEq, Repr

/-- The first instruction of a stream of bytes at ascending addresses, and the rest of the stream (R22, R30). -/
def decodeBytes (bytes : List Byte) (simplified : Bool) : Except DecodeError (Instr × List Byte) :=
  match bytes with
  | b0 :: b1 :: b2 :: b3 :: rest => .ok (decodeWord (wordOfBytes b0 b1 b2 b3) simplified, rest)
  | _ => .error .truncated

/-- Format `FMT_D` (R32). -/
def encodeD (opc : BitVec 6) (r a : RegNum) (imm : BitVec 16) : Word :=
  opc.setWidth 32 <<< 26 ||| r.setWidth 32 <<< 21 ||| a.setWidth 32 <<< 16 ||| imm.setWidth 32

/-- Format `FMT_I` (R32). -/
def encodeI (opc : BitVec 6) (li24 : BitVec 24) (aa lk : Bool) : Word :=
  opc.setWidth 32 <<< 26 ||| li24.setWidth 32 <<< 2 ||| (BitVec.ofBool aa).setWidth 32 <<< 1 |||
    (BitVec.ofBool lk).setWidth 32

/-- Format `FMT_X` with primary opcode 31 (R32). -/
def encodeX (rs ra rb : RegNum) (extOpc : BitVec 10) (rc : Bool) : Word :=
  opcExt.setWidth 32 <<< 26 ||| rs.setWidth 32 <<< 21 ||| ra.setWidth 32 <<< 16 ||| rb.setWidth 32 <<< 11 |||
    extOpc.setWidth 32 <<< 1 ||| (BitVec.ofBool rc).setWidth 32

/-- The word of an instruction, with the extended opcodes of R38 (a subtract-family one plus 512 where `OE` is 1). A word of the
illegal path is its own encoding (`FMT_RAW`, R32). -/
def encode : Instr → Word
  | .li rd imm => encodeD defaultConfig.opcAddi rd 0 imm
  | .addi rd ra imm => encodeD defaultConfig.opcAddi rd ra imm
  | .nop => encodeD opcOri 0 0 0
  | .mrOri rs ra => encodeD opcOri rs ra 0
  | .ori rs ra imm => encodeD opcOri rs ra imm
  | .b li24 => encodeI defaultConfig.opcB li24 false false
  | .bl li24 => encodeI defaultConfig.opcB li24 false true
  | .ba li24 => encodeI defaultConfig.opcB li24 true false
  | .bla li24 => encodeI defaultConfig.opcB li24 true true
  | .subfc rs ra rb => encodeX rs ra rb 8 false
  | .subfcRc rs ra rb => encodeX rs ra rb 8 true
  | .subfcOe rs ra rb => encodeX rs ra rb 520 false
  | .subfcOeRc rs ra rb => encodeX rs ra rb 520 true
  | .subf rs ra rb => encodeX rs ra rb 40 false
  | .subfRc rs ra rb => encodeX rs ra rb 40 true
  | .subfOe rs ra rb => encodeX rs ra rb 552 false
  | .subfOeRc rs ra rb => encodeX rs ra rb 552 true
  | .neg rs ra => encodeX rs ra 0 104 false
  | .negRc rs ra => encodeX rs ra 0 104 true
  | .negOe rs ra => encodeX rs ra 0 616 false
  | .negOeRc rs ra => encodeX rs ra 0 616 true
  | .subfe rs ra rb => encodeX rs ra rb 136 false
  | .subfeRc rs ra rb => encodeX rs ra rb 136 true
  | .subfeOe rs ra rb => encodeX rs ra rb 648 false
  | .subfeOeRc rs ra rb => encodeX rs ra rb 648 true
  | .subfze rs ra => encodeX rs ra 0 200 false
  | .subfzeRc rs ra => encodeX rs ra 0 200 true
  | .subfzeOe rs ra => encodeX rs ra 0 712 false
  | .subfzeOeRc rs ra => encodeX rs ra 0 712 true
  | .subfme rs ra => encodeX rs ra 0 232 false
  | .subfmeRc rs ra => encodeX rs ra 0 232 true
  | .subfmeOe rs ra => encodeX rs ra 0 744 false
  | .subfmeOeRc rs ra => encodeX rs ra 0 744 true
  | .doz rs ra rb => encodeX rs ra rb 264 false
  | .dozRc rs ra rb => encodeX rs ra rb 264 true
  | .dozOe rs ra rb => encodeX rs ra rb 776 false
  | .dozOeRc rs ra rb => encodeX rs ra rb 776 true
  | .abs rs ra => encodeX rs ra 0 360 false
  | .absRc rs ra => encodeX rs ra 0 360 true
  | .absOe rs ra => encodeX rs ra 0 872 false
  | .absOeRc rs ra => encodeX rs ra 0 872 true
  | .nabs rs ra => encodeX rs ra 0 488 false
  | .nabsRc rs ra => encodeX rs ra 0 488 true
  | .nabsOe rs ra => encodeX rs ra 0 1000 false
  | .nabsOeRc rs ra => encodeX rs ra 0 1000 true
  | .mrOr rs ra rb => encodeX rs ra rb 444 false
  | .mrOrRc rs ra rb => encodeX rs ra rb 444 true
  | .and rs ra rb => encodeX rs ra rb 28 false
  | .andRc rs ra rb => encodeX rs ra rb 28 true
  | .andc rs ra rb => encodeX rs ra rb 60 false
  | .andcRc rs ra rb => encodeX rs ra rb 60 true
  | .nor rs ra rb => encodeX rs ra rb 124 false
  | .norRc rs ra rb => encodeX rs ra rb 124 true
  | .eqv rs ra rb => encodeX rs ra rb 284 false
  | .eqvRc rs ra rb => encodeX rs ra rb 284 true
  | .xor rs ra rb => encodeX rs ra rb 316 false
  | .xorRc rs ra rb => encodeX rs ra rb 316 true
  | .orc rs ra rb => encodeX rs ra rb 412 false
  | .orcRc rs ra rb => encodeX rs ra rb 412 true
  | .or rs ra rb => encodeX rs ra rb 444 false
  | .orRc rs ra rb => encodeX rs ra rb 444 true
  | .nand rs ra rb => encodeX rs ra rb 476 false
  | .nandRc rs ra rb => encodeX rs ra rb 476 true
  | .lwzx rs ra rb => encodeX rs ra rb 23 false
  | .lwzux rs ra rb => encodeX rs ra rb 55 false
  | .lbzx rs ra rb => encodeX rs ra rb 87 false
  | .lbzux rs ra rb => encodeX rs ra rb 119 false
  | .stwx rs ra rb => encodeX rs ra rb 151 false
  | .stwux rs ra rb => encodeX rs ra rb 183 false
  | .stbx rs ra rb => encodeX rs ra rb 215 false
  | .stbux rs ra rb => encodeX rs ra rb 247 false
  | .lhzx rs ra rb => encodeX rs ra rb 279 false
  | .lhzux rs ra rb => encodeX rs ra rb 311 false
  | .lhax rs ra rb => encodeX rs ra rb 343 false
  | .lhaux rs ra rb => encodeX rs ra rb 375 false
  | .sthx rs ra rb => encodeX rs ra rb 407 false
  | .sthux rs ra rb => encodeX rs ra rb 439 false
  | .lfsx rs ra rb => encodeX rs ra rb 535 false
  | .lfsux rs ra rb => encodeX rs ra rb 567 false
  | .lfdx rs ra rb => encodeX rs ra rb 599 false
  | .lfdux rs ra rb => encodeX rs ra rb 631 false
  | .stfsx rs ra rb => encodeX rs ra rb 663 false
  | .stfsux rs ra rb => encodeX rs ra rb 695 false
  | .stfdx rs ra rb => encodeX rs ra rb 727 false
  | .stfdux rs ra rb => encodeX rs ra rb 759 false
  | .tw rs ra rb => encodeX rs ra rb 4 false
  | .dcl code => code

/-- The bytes of an instruction at ascending addresses (R22, R30). -/
def encodeBytes (i : Instr) : List Byte := bytesOfWord (encode i)

/-- The instruction the decoder reads from a table row's word, bit 0 its least significant bit: the word's four bytes in
their big-endian order go to `decodeBytes`. `simplified` is 1, the setting under which every row of the table is
reachable (DESIGN CHOICE, log 10). A number that does not fit in one word is no instruction (R30). -/
def decodeTableWord (nbits w : Nat) : Option Instr :=
  if w % 2 ^ nbits < 2 ^ 32 then
    match decodeBytes (bytesOfWord (BitVec.ofNat 32 (w % 2 ^ nbits))) true with
    | .ok (i, _) => some i
    | .error _ => none
  else none

end Sys2Proof
end

