-- ==== Sys2Proof/Machine/Flags.lean ====
section
/-! DEFINITION. The block holds, sets and reads no flag (R15). The two bits of a word that ask the decoded instruction
set for flag updates, `OE` and `rc`, are decoded as spelling only: this file is the whole of what they do. -/

namespace Sys2Proof.Machine

/-- The suffixes of a mnemonic in their fixed order, `o` for the overflow-enable bit, then `.` for the record bit (R60,
R110 (a)). -/
def suffix (oe rc : Bool) : String :=
  (if oe then "o" else "") ++ (if rc then "." else "")

end Sys2Proof.Machine
end

