-- ==== Sys2Proof/Machine/Record.lean ====
section
/-! DEFINITION. The structured result of a decode: the six kinds of operand (R54) and the record `Decoded` (R53), with
the one record of the illegal outcome (R76). That the result is a record with an `illegal` bit is the spec's own
decision D23 (DESIGN CHOICE, log 21). -/

namespace Sys2Proof.Machine

/-- An operand (R54). -/
inductive Operand where
  /-- `GPR(n)`: an integer register specifier. -/
  | gpr (n : RegNum)
  /-- `FPR(n)`: a floating-point register specifier. -/
  | fpr (n : RegNum)
  /-- `IMM16(v)`: a raw 16-bit immediate. -/
  | imm16 (v : BitVec 16)
  /-- `ADDR32(v)`: an absolute branch target. -/
  | addr32 (v : Word)
  /-- `RAW32(v)`: the undecoded instruction word. -/
  | raw32 (v : Word)
  /-- `TO(n)`: a trap condition. -/
  | trapOn (n : RegNum)
  deriving DecidableEq, Repr

/-- The result of decoding one word (R53): whether it is the illegal outcome, the complete mnemonic with its suffixes,
and the operands in the order they are printed. -/
structure Decoded where
  illegal : Bool
  mnem : String
  ops : List Operand
  deriving DecidableEq, Repr

/-- `ILLEGAL(code)` (R76): the word is recorded whole, and nothing else is (R202). -/
def illegalRecord (code : Word) : Decoded :=
  { illegal := true, mnem := "dc.l", ops := [.raw32 code] }

/-- What R53 asks of every record: a non-empty mnemonic, at most three operands, and the `illegal` bit set exactly for
the record `ILLEGAL(code)` of some word. -/
def Decoded.wf (d : Decoded) : Bool :=
  d.mnem != "" && decide (d.ops.length ≤ 3) &&
    (d.illegal ==
      match d.ops with
      | [.raw32 _] => d.mnem == "dc.l"
      | _ => false)

end Sys2Proof.Machine
end

