-- ==== Sys2Proof/Machine/SignExtend.lean ====
section
/-! DEFINITION. The sign-extension logic (R50 to R52). -/

namespace Sys2Proof.Machine

/-- `signExtend(value, p)` (R50): if bit `p` is set, every bit above it is set, else the value is returned unchanged. It
does not mask: bits above `p` of a value whose bit `p` is clear stay as they are (R51). The result is 32 bits wide (the
spec's decision D21; log 20). -/
def signExtend (value : Word) (p : Fin 32) : Word :=
  if value.getLsbD p then value ||| (0xFFFFFFFF#32 <<< (p.val + 1)) else value

end Sys2Proof.Machine
end

