-- ==== Sys2Proof/Machine/Operands.lean ====
section
/-! DEFINITION. Every operand form of the block (R62): one record shape per line of its table, in the printed order, and
the two ways a branch target is computed (R34, R91). -/

namespace Sys2Proof.Machine

/-- Two registers and an immediate: `addi` with `rd, ra` (R80), `ori` with `rs, ra` (R82; log 17). -/
def regRegImm (mnem : String) (r a : RegNum) (imm : BitVec 16) : Decoded :=
  { illegal := false, mnem := mnem, ops := [.gpr r, .gpr a, .imm16 imm] }

/-- A register and an immediate: `li` (R81). -/
def regImm (mnem : String) (r : RegNum) (imm : BitVec 16) : Decoded :=
  { illegal := false, mnem := mnem, ops := [.gpr r, .imm16 imm] }

/-- No operand: `nop` (R83). -/
def bare (mnem : String) : Decoded :=
  { illegal := false, mnem := mnem, ops := [] }

/-- The move-register idiom, `ra` first: `mr` of or-immediate (R84), `mr` and `mr.` of `or` (R139). -/
def moveReg (rc : Bool) (rs ra : RegNum) : Decoded :=
  { illegal := false, mnem := "mr" ++ suffix false rc, ops := [.gpr ra, .gpr rs] }

/-- One branch target (R90). -/
def branchTo (mnem : String) (target : Word) : Decoded :=
  { illegal := false, mnem := mnem, ops := [.addr32 target] }

/-- The subtract family's three-operand form `rs, ra, rb` (R110). -/
def subThree (base : String) (oe rc : Bool) (rs ra rb : RegNum) : Decoded :=
  { illegal := false, mnem := base ++ suffix oe rc, ops := [.gpr rs, .gpr ra, .gpr rb] }

/-- The subtract family's two-operand form `rs, ra` (R110 (d), the spec's decision D7; log 16). -/
def subTwo (base : String) (oe rc : Bool) (rs ra : RegNum) : Decoded :=
  { illegal := false, mnem := base ++ suffix oe rc, ops := [.gpr rs, .gpr ra] }

/-- The logical family's form `ra, rs, rb` (R130 (c)). -/
def logicThree (base : String) (rc : Bool) (rs ra rb : RegNum) : Decoded :=
  { illegal := false, mnem := base ++ suffix false rc, ops := [.gpr ra, .gpr rs, .gpr rb] }

/-- The load/store family's integer form `rs, ra, rb`, indices 0 to 15 (R150). -/
def loadStoreInt (mnem : String) (rs ra rb : RegNum) : Decoded :=
  { illegal := false, mnem := mnem, ops := [.gpr rs, .gpr ra, .gpr rb] }

/-- The load/store family's floating-point form `fp rs, ra, rb`, indices 16 to 23 (R150 (d)). -/
def loadStoreFp (mnem : String) (rs ra rb : RegNum) : Decoded :=
  { illegal := false, mnem := mnem, ops := [.fpr rs, .gpr ra, .gpr rb] }

/-- The trap condition and two registers (R180; the order is the spec's decision D8, log 13). -/
def trapWord (cond ra rb : RegNum) : Decoded :=
  { illegal := false, mnem := "tw", ops := [.trapOn cond, .gpr ra, .gpr rb] }

/-- The branch displacement of a 24-bit field kept in place, `LI24 ++ 0b00` sign-extended from bit 25 (R34). -/
def displacement (li24 : BitVec 24) : Word :=
  signExtend (li24.setWidth 32 <<< 2) 25

/-- The target with `AA = 0`: the sum of the cursor and the displacement modulo 2^32 (R91; wrapping is the spec's decision
D2, log 11). The cursor is not checked for alignment (R23; log 18). -/
def relativeTarget (addr : Word) (li24 : BitVec 24) : Word := addr + displacement li24

/-- The target with `AA = 1`: the displacement alone (R91). -/
def absoluteTarget (li24 : BitVec 24) : Word := displacement li24

end Sys2Proof.Machine
end

