-- ==== Sys2Proof/Machine/Formatter.lean ====
section
/-! DEFINITION. The output formatter: the text primitives (R55 to R57) and the rendering of a record (R58, R59). The text
is ASCII with no line terminator, no leading and no trailing space (R58; the spec's decision D16, log 27). -/

namespace Sys2Proof.Machine

/-- The sixteen digits of R55, upper case. -/
def hexDigits : List Char :=
  ['0', '1', '2', '3', '4', '5', '6', '7', '8', '9', 'A', 'B', 'C', 'D', 'E', 'F']

/-- One hexadecimal digit of the alphabet of R55. -/
def hexDigit (d : BitVec 4) : Char := hexDigits.getD d.toNat '0'

/-- `hex4(v)` (R55): four digits, the one of `v[15:12]` first. -/
def hex4 (v : BitVec 16) : String :=
  String.ofList
    [hexDigit (v.extractLsb' 12 4), hexDigit (v.extractLsb' 8 4), hexDigit (v.extractLsb' 4 4),
      hexDigit (v.extractLsb' 0 4)]

/-- `hex8(v)` (R56): eight digits, the one of `v[31:28]` first. Upper case is the spec's decision D10 (log 12). -/
def hex8 (v : Word) : String :=
  String.ofList
    [hexDigit (v.extractLsb' 28 4), hexDigit (v.extractLsb' 24 4), hexDigit (v.extractLsb' 20 4),
      hexDigit (v.extractLsb' 16 4), hexDigit (v.extractLsb' 12 4), hexDigit (v.extractLsb' 8 4),
      hexDigit (v.extractLsb' 4 4), hexDigit (v.extractLsb' 0 4)]

/-- One decimal digit; the first ten digits of the hexadecimal alphabet are the decimal ones. -/
def decDigit (d : Nat) : Char := hexDigits.getD d '0'

/-- `dec(n)` (R57): the decimal numeral of a 5-bit number, no leading zero (the spec's decision D9; log 14). -/
def dec (n : RegNum) : String :=
  if n.toNat < 10 then String.ofList [decDigit n.toNat]
  else String.ofList [decDigit (n.toNat / 10), decDigit (n.toNat % 10)]

/-- `pad8(s)` (R57): blanks up to the mnemonic column; a text that fills the column is returned as it is, with no space
added (the spec's decision D11; log 15). -/
def pad8 (s : String) : String :=
  s ++ String.ofList (List.replicate (mnemonicColumn - s.length) ' ')

/-- `join(", ", xs)` (R58). -/
def joinOps : List String → String
  | [] => ""
  | [x] => x
  | x :: y :: rest => x ++ ", " ++ joinOps (y :: rest)

/-- The text of an operand by its kind (R59). That `TO(n)` is a bare decimal number is the spec's decision D8 (log 13). -/
def renderOp : Operand → String
  | .gpr n => "r" ++ dec n
  | .fpr n => "fp" ++ dec n
  | .imm16 v => "0x" ++ hex4 v
  | .addr32 v => "0x" ++ hex8 v
  | .raw32 v => "0x" ++ hex8 v
  | .trapOn n => dec n

/-- The text of a record (R58): the bare mnemonic where there is no operand, else the padded mnemonic and the operands
with a comma and a space between them. -/
def render (d : Decoded) : String :=
  match d.ops with
  | [] => d.mnem
  | op :: rest => pad8 d.mnem ++ joinOps ((op :: rest).map renderOp)

end Sys2Proof.Machine
end

