-- ==== Sys2Proof/Machine/State.lean ====
section
/-! DEFINITION. The state of one decoder instance with the host that drives it, the reasons a step can stop, and the
state after reset. `addr` and `out` are the block's complete state (R10: "There is no other state"). `pending` and
`texts` are the MODEL's own: the host's actions still to be issued, in their order (R27 (b), R225), and the texts its
decode actions have returned so far (R11, R225), because a step is a function of the state alone (log 5, log 6). The
block holds no general, floating-point, flag, status, control or exception register (R13 to R16, R200) and addresses no
memory (R19, R21), so none stands here. -/

namespace Sys2Proof.Machine

/-- The host's two actions on the block (R11). -/
inductive HostAction where
  /-- `LoadAddr(a)`. -/
  | loadAddr (a : Word)
  /-- `Decode(code, simplified)`. -/
  | decode (code : Word) (simplified : Bool)
  deriving DecidableEq, Repr

/-- Why the block could stop with a fault: there is no such reason, so the type has no constructor. "The block raises no
exception of any kind" (R200) and "does not fault, abort, hang or stall on any input" (R72, R200; log 25). -/
inductive Fault where
  deriving DecidableEq, Repr

/-- Why the model has no step. -/
inductive Refusal where
  /-- An instruction with no meaning in the model yet, named as spec/opcode_table.json names it. No arm raises it: every
  row has its meaning. Safe. -/
  | notModelled (mnemonic : String)
  /-- A `Decode`, or the host's reading of `ADDR`, while `ADDR` is unwritten (R20, R221, R225, U12). Raised by the decode
  transaction and by `readAddr` in Machine/Ops.lean. Safe: the spec itself refuses it. -/
  | addrUnwritten
  /-- The host's reading of `OUT` before the first `Decode` (R20, U13). Raised by `readOut` in Machine/Ops.lean, by no
  step. Safe: the spec itself refuses it. -/
  | outUnwritten
  deriving DecidableEq, Repr

/-- The state: the block's `ADDR` and `OUT`, each either written or *unwritten*, which is a state the spec gives them
(R10, R20), and the model's two fields for the host. -/
structure State where
  /-- `ADDR`, the address cursor: 32 bits, or unwritten (R10, R12). -/
  addr : Option Word
  /-- `OUT`, the record of the last decode transaction, or unwritten (R10, R53). -/
  out : Option Decoded
  /-- MODEL's own: the host's actions still to be issued, the next one first (log 5). -/
  pending : List HostAction
  /-- MODEL's own: the texts that the decode actions have returned, the oldest first (log 6). -/
  texts : List String
  deriving DecidableEq, Repr

/-- The machine after reset (R20, R220): `ADDR` and `OUT` unwritten (the spec's decision D13; log 7). The host has issued
nothing and nothing has been returned (DESIGN CHOICE, log 8). -/
def State.reset : State where
  addr := none
  out := none
  pending := []
  texts := []

end Sys2Proof.Machine
end

