-- ==== Sys2Proof/Machine/Ops.lean ====
section
/-! DEFINITION. The named operations over the state: reading `ADDR` and `OUT`, the host action `LoadAddr`, and the decode
transaction around a handler, the ONE place where `OUT` and `ADDR` are written by a decode (R11, R70, R73). There is no
exception to take and none to return from: the illegal outcome "is a normal, total outcome, not a fault", and what
happens on it "is exactly what happens on every other outcome" (R200, R204, R205; log 24). -/

namespace Sys2Proof.Machine

/-- The host's reading of `ADDR` between actions (R11), refused while it is unwritten (R20; log 26). -/
def readAddr (s : State) : Except Refusal Word :=
  match s.addr with
  | some a => .ok a
  | none => .error .addrUnwritten

/-- The host's reading of `OUT` between actions (R11), refused before the first decode (R20, U13). -/
def readOut (s : State) : Except Refusal Decoded :=
  match s.out with
  | some d => .ok d
  | none => .error .outUnwritten

/-- The state with another list of actions to issue (the model's field; log 5). -/
def State.withPending (s : State) (actions : List HostAction) : State :=
  { s with pending := actions }

/-- `ADDR <- a` (R11): the only write of the cursor besides the advance (R12). -/
def State.withAddr (s : State) (a : Word) : State :=
  { s with addr := some a }

/-- What a decode transaction that saw `ADDR = a` leaves: `OUT <- d`, `ADDR <- (a + 4) mod 2^32`, and the text of `d`
returned (R70, R73; wrapping is the spec's decision D2, log 11). -/
def State.delivered (s : State) (a : Word) (d : Decoded) : State :=
  { s with addr := some (a + cursorStep), out := some d, texts := s.texts ++ [render d] }

/-- The host action `LoadAddr(a)`: `OUT` unchanged (R11, R222, R225). -/
def loadAddr (a : Word) (s : State) : Host.Outcome State Fault Refusal :=
  .next (s.withAddr a)

/-- The decode transaction around a handler (R70): the handler sees `ADDR` before the advance, then `OUT` and `ADDR` are
written together (R24). Refused, with nothing changed, while `ADDR` is unwritten (R20). -/
def transact (handler : Word → Decoded) (s : State) : Host.Outcome State Fault Refusal :=
  match readAddr s with
  | .ok a => .next (s.delivered a (handler a))
  | .error r => .refused r

/-- No action issued: the block "holds `ADDR` and `OUT` unchanged for as long as the host likes" (R213; log 5). -/
def idle (s : State) : Host.Outcome State Fault Refusal := .next s

end Sys2Proof.Machine
end

