-- ==== Sys2Proof/Machine/Branch.lean ====
section
/-! DEFINITION. The unconditional branches (44_branch): `b`, `bl`, `ba`, `bla`. The target is printed, never loaded
into the cursor (R91). Each meaning is one decode transaction (R70) with the record of its rule. -/

namespace Sys2Proof.Machine

/-- `b` (R92). The target counts from the address of the branch word itself. -/
def execB (li24 : BitVec 24) (s : State) : Host.Outcome State Fault Refusal :=
  transact (fun addr => branchTo "b" (relativeTarget addr li24)) s

/-- `bl` (R93). `LK` selects the spelling and nothing else; there is no link register (R91). -/
def execBl (li24 : BitVec 24) (s : State) : Host.Outcome State Fault Refusal :=
  transact (fun addr => branchTo "bl" (relativeTarget addr li24)) s

/-- `ba` (R94). The cursor is not read. -/
def execBa (li24 : BitVec 24) (s : State) : Host.Outcome State Fault Refusal :=
  transact (fun _ => branchTo "ba" (absoluteTarget li24)) s

/-- `bla` (R95). The cursor is not read. -/
def execBla (li24 : BitVec 24) (s : State) : Host.Outcome State Fault Refusal :=
  transact (fun _ => branchTo "bla" (absoluteTarget li24)) s

end Sys2Proof.Machine
end

