-- ==== Sys2Proof/Machine/IllegalWord.lean ====
section
/-! DEFINITION. The illegal-instruction word (42_dispatch section 3). Each meaning is one decode transaction (R70)
with the record of its rule. -/

namespace Sys2Proof.Machine

/-- `dc.l` (R76). The word is printed whole; the cursor advances as on every other outcome (R204). For a word
that is not illegal, which nothing reads as `dc.l`, the record is the model's choice (DESIGN CHOICE, log 28). -/
def execDcl (code : Word) (s : State) : Host.Outcome State Fault Refusal :=
  transact (fun _ => illegalRecord code) s

end Sys2Proof.Machine
end

