-- ==== Sys2Proof/Machine/Immediate.lean ====
section
/-! DEFINITION. The add-immediate and or-immediate instructions (43_immediate): `li`, `addi`, `nop`, `mr`, `ori`. Each
meaning is one decode transaction (R70) with the record of its rule. -/

namespace Sys2Proof.Machine

/-- `li` (R81). The base register is the number 0 and is not printed. -/
def execLi (rd : RegNum) (imm : BitVec 16) (s : State) : Host.Outcome State Fault Refusal :=
  transact (fun _ => regImm "li" rd imm) s

/-- `addi` (R80). The immediate is printed raw and unsigned. -/
def execAddi (rd ra : RegNum) (imm : BitVec 16) (s : State) : Host.Outcome State Fault Refusal :=
  transact (fun _ => regRegImm "addi" rd ra imm) s

/-- `nop` (R83). -/
def execNop (s : State) : Host.Outcome State Fault Refusal :=
  transact (fun _ => bare "nop") s

/-- `mr` (R84). `ra` is printed first. With both registers zero, which R84 excludes and no word reads as, the record
is the model's choice (DESIGN CHOICE, log 28). -/
def execMrOri (rs ra : RegNum) (s : State) : Host.Outcome State Fault Refusal :=
  transact (fun _ => moveReg false rs ra) s

/-- `ori` (R82). `rs` is printed first, as the document says (90, C1; log 17). -/
def execOri (rs ra : RegNum) (imm : BitVec 16) (s : State) : Host.Outcome State Fault Refusal :=
  transact (fun _ => regRegImm "ori" rs ra imm) s

end Sys2Proof.Machine
end

