-- ==== Sys2Proof/Machine/LoadStore.lean ====
section
/-! DEFINITION. The indexed load/store family (48_ext_ldst). No memory access is made; the word is decoded to a record
and its text and nothing else. Each meaning is one decode transaction (R70) with the record of its rule. -/

namespace Sys2Proof.Machine

/-- `lwzx` (R151). -/
def execLwzx (rs ra rb : RegNum) (s : State) : Host.Outcome State Fault Refusal :=
  transact (fun _ => loadStoreInt "lwzx" rs ra rb) s

/-- `lwzux` (R152). -/
def execLwzux (rs ra rb : RegNum) (s : State) : Host.Outcome State Fault Refusal :=
  transact (fun _ => loadStoreInt "lwzux" rs ra rb) s

/-- `lbzx` (R153). -/
def execLbzx (rs ra rb : RegNum) (s : State) : Host.Outcome State Fault Refusal :=
  transact (fun _ => loadStoreInt "lbzx" rs ra rb) s

/-- `lbzux` (R154). -/
def execLbzux (rs ra rb : RegNum) (s : State) : Host.Outcome State Fault Refusal :=
  transact (fun _ => loadStoreInt "lbzux" rs ra rb) s

/-- `stwx` (R155). -/
def execStwx (rs ra rb : RegNum) (s : State) : Host.Outcome State Fault Refusal :=
  transact (fun _ => loadStoreInt "stwx" rs ra rb) s

/-- `stwux` (R156). -/
def execStwux (rs ra rb : RegNum) (s : State) : Host.Outcome State Fault Refusal :=
  transact (fun _ => loadStoreInt "stwux" rs ra rb) s

/-- `stbx` (R157). -/
def execStbx (rs ra rb : RegNum) (s : State) : Host.Outcome State Fault Refusal :=
  transact (fun _ => loadStoreInt "stbx" rs ra rb) s

/-- `stbux` (R158). -/
def execStbux (rs ra rb : RegNum) (s : State) : Host.Outcome State Fault Refusal :=
  transact (fun _ => loadStoreInt "stbux" rs ra rb) s

/-- `lhzx` (R159). -/
def execLhzx (rs ra rb : RegNum) (s : State) : Host.Outcome State Fault Refusal :=
  transact (fun _ => loadStoreInt "lhzx" rs ra rb) s

/-- `lhzux` (R160). -/
def execLhzux (rs ra rb : RegNum) (s : State) : Host.Outcome State Fault Refusal :=
  transact (fun _ => loadStoreInt "lhzux" rs ra rb) s

/-- `lhax` (R161). -/
def execLhax (rs ra rb : RegNum) (s : State) : Host.Outcome State Fault Refusal :=
  transact (fun _ => loadStoreInt "lhax" rs ra rb) s

/-- `lhaux` (R162). -/
def execLhaux (rs ra rb : RegNum) (s : State) : Host.Outcome State Fault Refusal :=
  transact (fun _ => loadStoreInt "lhaux" rs ra rb) s

/-- `sthx` (R163). -/
def execSthx (rs ra rb : RegNum) (s : State) : Host.Outcome State Fault Refusal :=
  transact (fun _ => loadStoreInt "sthx" rs ra rb) s

/-- `sthux` (R164). -/
def execSthux (rs ra rb : RegNum) (s : State) : Host.Outcome State Fault Refusal :=
  transact (fun _ => loadStoreInt "sthux" rs ra rb) s

/-- `lfsx` (R165). -/
def execLfsx (rs ra rb : RegNum) (s : State) : Host.Outcome State Fault Refusal :=
  transact (fun _ => loadStoreFp "lfsx" rs ra rb) s

/-- `lfsux` (R166). -/
def execLfsux (rs ra rb : RegNum) (s : State) : Host.Outcome State Fault Refusal :=
  transact (fun _ => loadStoreFp "lfsux" rs ra rb) s

/-- `lfdx` (R167). -/
def execLfdx (rs ra rb : RegNum) (s : State) : Host.Outcome State Fault Refusal :=
  transact (fun _ => loadStoreFp "lfdx" rs ra rb) s

/-- `lfdux` (R168). -/
def execLfdux (rs ra rb : RegNum) (s : State) : Host.Outcome State Fault Refusal :=
  transact (fun _ => loadStoreFp "lfdux" rs ra rb) s

/-- `stfsx` (R169). -/
def execStfsx (rs ra rb : RegNum) (s : State) : Host.Outcome State Fault Refusal :=
  transact (fun _ => loadStoreFp "stfsx" rs ra rb) s

/-- `stfsux` (R170). -/
def execStfsux (rs ra rb : RegNum) (s : State) : Host.Outcome State Fault Refusal :=
  transact (fun _ => loadStoreFp "stfsux" rs ra rb) s

/-- `stfdx` (R171). -/
def execStfdx (rs ra rb : RegNum) (s : State) : Host.Outcome State Fault Refusal :=
  transact (fun _ => loadStoreFp "stfdx" rs ra rb) s

/-- `stfdux` (R172). -/
def execStfdux (rs ra rb : RegNum) (s : State) : Host.Outcome State Fault Refusal :=
  transact (fun _ => loadStoreFp "stfdux" rs ra rb) s

end Sys2Proof.Machine
end

