-- ==== Sys2Proof/Machine/Logical.lean ====
section
/-! DEFINITION. The logical family (47_ext_logic): the move-register idiom and eight mnemonics, each with and without
`.`; `ra` is printed first. Each meaning is one decode transaction (R70) with the record of its rule. -/

namespace Sys2Proof.Machine

/-- `mr` (R139). `ra` is printed first; the logical ROM is not consulted, and `rb`, equal to `rs` in every word read
so, is not printed. For other `rb`, which no word reads as, the record is the model's choice (DESIGN CHOICE, log 28). -/
def execMrOr (rs ra _rb : RegNum) (s : State) : Host.Outcome State Fault Refusal :=
  transact (fun _ => moveReg false rs ra) s

/-- `mr.` (R139). As `mr`, with the record suffix (other `rb`: DESIGN CHOICE, log 28). -/
def execMrOrRc (rs ra _rb : RegNum) (s : State) : Host.Outcome State Fault Refusal :=
  transact (fun _ => moveReg true rs ra) s

/-- `and` (R131). -/
def execAnd (rs ra rb : RegNum) (s : State) : Host.Outcome State Fault Refusal :=
  transact (fun _ => logicThree "and" false rs ra rb) s

/-- `and.` (R131). -/
def execAndRc (rs ra rb : RegNum) (s : State) : Host.Outcome State Fault Refusal :=
  transact (fun _ => logicThree "and" true rs ra rb) s

/-- `andc` (R132). -/
def execAndc (rs ra rb : RegNum) (s : State) : Host.Outcome State Fault Refusal :=
  transact (fun _ => logicThree "andc" false rs ra rb) s

/-- `andc.` (R132). -/
def execAndcRc (rs ra rb : RegNum) (s : State) : Host.Outcome State Fault Refusal :=
  transact (fun _ => logicThree "andc" true rs ra rb) s

/-- `nor` (R133). -/
def execNor (rs ra rb : RegNum) (s : State) : Host.Outcome State Fault Refusal :=
  transact (fun _ => logicThree "nor" false rs ra rb) s

/-- `nor.` (R133). -/
def execNorRc (rs ra rb : RegNum) (s : State) : Host.Outcome State Fault Refusal :=
  transact (fun _ => logicThree "nor" true rs ra rb) s

/-- `eqv` (R134). -/
def execEqv (rs ra rb : RegNum) (s : State) : Host.Outcome State Fault Refusal :=
  transact (fun _ => logicThree "eqv" false rs ra rb) s

/-- `eqv.` (R134). -/
def execEqvRc (rs ra rb : RegNum) (s : State) : Host.Outcome State Fault Refusal :=
  transact (fun _ => logicThree "eqv" true rs ra rb) s

/-- `xor` (R135). -/
def execXor (rs ra rb : RegNum) (s : State) : Host.Outcome State Fault Refusal :=
  transact (fun _ => logicThree "xor" false rs ra rb) s

/-- `xor.` (R135). -/
def execXorRc (rs ra rb : RegNum) (s : State) : Host.Outcome State Fault Refusal :=
  transact (fun _ => logicThree "xor" true rs ra rb) s

/-- `orc` (R136). -/
def execOrc (rs ra rb : RegNum) (s : State) : Host.Outcome State Fault Refusal :=
  transact (fun _ => logicThree "orc" false rs ra rb) s

/-- `orc.` (R136). -/
def execOrcRc (rs ra rb : RegNum) (s : State) : Host.Outcome State Fault Refusal :=
  transact (fun _ => logicThree "orc" true rs ra rb) s

/-- `or` (R137). -/
def execOr (rs ra rb : RegNum) (s : State) : Host.Outcome State Fault Refusal :=
  transact (fun _ => logicThree "or" false rs ra rb) s

/-- `or.` (R137). -/
def execOrRc (rs ra rb : RegNum) (s : State) : Host.Outcome State Fault Refusal :=
  transact (fun _ => logicThree "or" true rs ra rb) s

/-- `nand` (R138). -/
def execNand (rs ra rb : RegNum) (s : State) : Host.Outcome State Fault Refusal :=
  transact (fun _ => logicThree "nand" false rs ra rb) s

/-- `nand.` (R138). -/
def execNandRc (rs ra rb : RegNum) (s : State) : Host.Outcome State Fault Refusal :=
  transact (fun _ => logicThree "nand" true rs ra rb) s

end Sys2Proof.Machine
end

