-- ==== Sys2Proof/Machine/Subtract.lean ====
section
/-! DEFINITION. The subtract family (46_ext_arith): nine mnemonics, each in four spellings. `OE` and `rc` only choose
the spelling. Each meaning is one decode transaction (R70) with the record of its rule. -/

namespace Sys2Proof.Machine

/-- `subfc` (R111). -/
def execSubfc (rs ra rb : RegNum) (s : State) : Host.Outcome State Fault Refusal :=
  transact (fun _ => subThree "subfc" false false rs ra rb) s

/-- `subfc.` (R111). -/
def execSubfcRc (rs ra rb : RegNum) (s : State) : Host.Outcome State Fault Refusal :=
  transact (fun _ => subThree "subfc" false true rs ra rb) s

/-- `subfco` (R111). -/
def execSubfcOe (rs ra rb : RegNum) (s : State) : Host.Outcome State Fault Refusal :=
  transact (fun _ => subThree "subfc" true false rs ra rb) s

/-- `subfco.` (R111). -/
def execSubfcOeRc (rs ra rb : RegNum) (s : State) : Host.Outcome State Fault Refusal :=
  transact (fun _ => subThree "subfc" true true rs ra rb) s

/-- `subf` (R112). -/
def execSubf (rs ra rb : RegNum) (s : State) : Host.Outcome State Fault Refusal :=
  transact (fun _ => subThree "subf" false false rs ra rb) s

/-- `subf.` (R112). -/
def execSubfRc (rs ra rb : RegNum) (s : State) : Host.Outcome State Fault Refusal :=
  transact (fun _ => subThree "subf" false true rs ra rb) s

/-- `subfo` (R112). -/
def execSubfOe (rs ra rb : RegNum) (s : State) : Host.Outcome State Fault Refusal :=
  transact (fun _ => subThree "subf" true false rs ra rb) s

/-- `subfo.` (R112). -/
def execSubfOeRc (rs ra rb : RegNum) (s : State) : Host.Outcome State Fault Refusal :=
  transact (fun _ => subThree "subf" true true rs ra rb) s

/-- `neg` (R113). -/
def execNeg (rs ra : RegNum) (s : State) : Host.Outcome State Fault Refusal :=
  transact (fun _ => subTwo "neg" false false rs ra) s

/-- `neg.` (R113). -/
def execNegRc (rs ra : RegNum) (s : State) : Host.Outcome State Fault Refusal :=
  transact (fun _ => subTwo "neg" false true rs ra) s

/-- `nego` (R113). -/
def execNegOe (rs ra : RegNum) (s : State) : Host.Outcome State Fault Refusal :=
  transact (fun _ => subTwo "neg" true false rs ra) s

/-- `nego.` (R113). -/
def execNegOeRc (rs ra : RegNum) (s : State) : Host.Outcome State Fault Refusal :=
  transact (fun _ => subTwo "neg" true true rs ra) s

/-- `subfe` (R114). -/
def execSubfe (rs ra rb : RegNum) (s : State) : Host.Outcome State Fault Refusal :=
  transact (fun _ => subThree "subfe" false false rs ra rb) s

/-- `subfe.` (R114). -/
def execSubfeRc (rs ra rb : RegNum) (s : State) : Host.Outcome State Fault Refusal :=
  transact (fun _ => subThree "subfe" false true rs ra rb) s

/-- `subfeo` (R114). -/
def execSubfeOe (rs ra rb : RegNum) (s : State) : Host.Outcome State Fault Refusal :=
  transact (fun _ => subThree "subfe" true false rs ra rb) s

/-- `subfeo.` (R114). -/
def execSubfeOeRc (rs ra rb : RegNum) (s : State) : Host.Outcome State Fault Refusal :=
  transact (fun _ => subThree "subfe" true true rs ra rb) s

/-- `subfze` (R115). -/
def execSubfze (rs ra : RegNum) (s : State) : Host.Outcome State Fault Refusal :=
  transact (fun _ => subTwo "subfze" false false rs ra) s

/-- `subfze.` (R115). -/
def execSubfzeRc (rs ra : RegNum) (s : State) : Host.Outcome State Fault Refusal :=
  transact (fun _ => subTwo "subfze" false true rs ra) s

/-- `subfzeo` (R115). -/
def execSubfzeOe (rs ra : RegNum) (s : State) : Host.Outcome State Fault Refusal :=
  transact (fun _ => subTwo "subfze" true false rs ra) s

/-- `subfzeo.` (R115). -/
def execSubfzeOeRc (rs ra : RegNum) (s : State) : Host.Outcome State Fault Refusal :=
  transact (fun _ => subTwo "subfze" true true rs ra) s

/-- `subfme` (R116). -/
def execSubfme (rs ra : RegNum) (s : State) : Host.Outcome State Fault Refusal :=
  transact (fun _ => subTwo "subfme" false false rs ra) s

/-- `subfme.` (R116). -/
def execSubfmeRc (rs ra : RegNum) (s : State) : Host.Outcome State Fault Refusal :=
  transact (fun _ => subTwo "subfme" false true rs ra) s

/-- `subfmeo` (R116). -/
def execSubfmeOe (rs ra : RegNum) (s : State) : Host.Outcome State Fault Refusal :=
  transact (fun _ => subTwo "subfme" true false rs ra) s

/-- `subfmeo.` (R116). -/
def execSubfmeOeRc (rs ra : RegNum) (s : State) : Host.Outcome State Fault Refusal :=
  transact (fun _ => subTwo "subfme" true true rs ra) s

/-- `doz` (R117). -/
def execDoz (rs ra rb : RegNum) (s : State) : Host.Outcome State Fault Refusal :=
  transact (fun _ => subThree "doz" false false rs ra rb) s

/-- `doz.` (R117). -/
def execDozRc (rs ra rb : RegNum) (s : State) : Host.Outcome State Fault Refusal :=
  transact (fun _ => subThree "doz" false true rs ra rb) s

/-- `dozo` (R117). -/
def execDozOe (rs ra rb : RegNum) (s : State) : Host.Outcome State Fault Refusal :=
  transact (fun _ => subThree "doz" true false rs ra rb) s

/-- `dozo.` (R117). -/
def execDozOeRc (rs ra rb : RegNum) (s : State) : Host.Outcome State Fault Refusal :=
  transact (fun _ => subThree "doz" true true rs ra rb) s

/-- `abs` (R118). -/
def execAbs (rs ra : RegNum) (s : State) : Host.Outcome State Fault Refusal :=
  transact (fun _ => subTwo "abs" false false rs ra) s

/-- `abs.` (R118). -/
def execAbsRc (rs ra : RegNum) (s : State) : Host.Outcome State Fault Refusal :=
  transact (fun _ => subTwo "abs" false true rs ra) s

/-- `abso` (R118). -/
def execAbsOe (rs ra : RegNum) (s : State) : Host.Outcome State Fault Refusal :=
  transact (fun _ => subTwo "abs" true false rs ra) s

/-- `abso.` (R118). -/
def execAbsOeRc (rs ra : RegNum) (s : State) : Host.Outcome State Fault Refusal :=
  transact (fun _ => subTwo "abs" true true rs ra) s

/-- `nabs` (R119). -/
def execNabs (rs ra : RegNum) (s : State) : Host.Outcome State Fault Refusal :=
  transact (fun _ => subTwo "nabs" false false rs ra) s

/-- `nabs.` (R119). -/
def execNabsRc (rs ra : RegNum) (s : State) : Host.Outcome State Fault Refusal :=
  transact (fun _ => subTwo "nabs" false true rs ra) s

/-- `nabso` (R119). -/
def execNabsOe (rs ra : RegNum) (s : State) : Host.Outcome State Fault Refusal :=
  transact (fun _ => subTwo "nabs" true false rs ra) s

/-- `nabso.` (R119). -/
def execNabsOeRc (rs ra : RegNum) (s : State) : Host.Outcome State Fault Refusal :=
  transact (fun _ => subTwo "nabs" true true rs ra) s

end Sys2Proof.Machine
end

