-- ==== Sys2Proof/Machine/Trap.lean ====
section
/-! DEFINITION. Trap-word (49_ext_trap). Each meaning is one decode transaction (R70) with the record of its rule. -/

namespace Sys2Proof.Machine

/-- `tw` (R180). The condition is printed and not evaluated; the block does not trap. -/
def execTw (rs ra rb : RegNum) (s : State) : Host.Outcome State Fault Refusal :=
  transact (fun _ => trapWord rs ra rb) s

end Sys2Proof.Machine
end

