-- ==== Sys2Proof/Machine/Dispatch.lean ====
section
/-! DEFINITION. One arm per instruction: the meaning it calls. -/

namespace Sys2Proof.Machine

def exec (i : Instr) (s : State) : Host.Outcome State Fault Refusal :=
  match i with
  | .li rd imm => Sys2Proof.Machine.execLi rd imm s
  | .addi rd ra imm => Sys2Proof.Machine.execAddi rd ra imm s
  | .nop => Sys2Proof.Machine.execNop s
  | .mrOri rs ra => Sys2Proof.Machine.execMrOri rs ra s
  | .ori rs ra imm => Sys2Proof.Machine.execOri rs ra imm s
  | .b li24 => Sys2Proof.Machine.execB li24 s
  | .bl li24 => Sys2Proof.Machine.execBl li24 s
  | .ba li24 => Sys2Proof.Machine.execBa li24 s
  | .bla li24 => Sys2Proof.Machine.execBla li24 s
  | .subfc rs ra rb => Sys2Proof.Machine.execSubfc rs ra rb s
  | .subfcRc rs ra rb => Sys2Proof.Machine.execSubfcRc rs ra rb s
  | .subfcOe rs ra rb => Sys2Proof.Machine.execSubfcOe rs ra rb s
  | .subfcOeRc rs ra rb => Sys2Proof.Machine.execSubfcOeRc rs ra rb s
  | .subf rs ra rb => Sys2Proof.Machine.execSubf rs ra rb s
  | .subfRc rs ra rb => Sys2Proof.Machine.execSubfRc rs ra rb s
  | .subfOe rs ra rb => Sys2Proof.Machine.execSubfOe rs ra rb s
  | .subfOeRc rs ra rb => Sys2Proof.Machine.execSubfOeRc rs ra rb s
  | .neg rs ra => Sys2Proof.Machine.execNeg rs ra s
  | .negRc rs ra => Sys2Proof.Machine.execNegRc rs ra s
  | .negOe rs ra => Sys2Proof.Machine.execNegOe rs ra s
  | .negOeRc rs ra => Sys2Proof.Machine.execNegOeRc rs ra s
  | .subfe rs ra rb => Sys2Proof.Machine.execSubfe rs ra rb s
  | .subfeRc rs ra rb => Sys2Proof.Machine.execSubfeRc rs ra rb s
  | .subfeOe rs ra rb => Sys2Proof.Machine.execSubfeOe rs ra rb s
  | .subfeOeRc rs ra rb => Sys2Proof.Machine.execSubfeOeRc rs ra rb s
  | .subfze rs ra => Sys2Proof.Machine.execSubfze rs ra s
  | .subfzeRc rs ra => Sys2Proof.Machine.execSubfzeRc rs ra s
  | .subfzeOe rs ra => Sys2Proof.Machine.execSubfzeOe rs ra s
  | .subfzeOeRc rs ra => Sys2Proof.Machine.execSubfzeOeRc rs ra s
  | .subfme rs ra => Sys2Proof.Machine.execSubfme rs ra s
  | .subfmeRc rs ra => Sys2Proof.Machine.execSubfmeRc rs ra s
  | .subfmeOe rs ra => Sys2Proof.Machine.execSubfmeOe rs ra s
  | .subfmeOeRc rs ra => Sys2Proof.Machine.execSubfmeOeRc rs ra s
  | .doz rs ra rb => Sys2Proof.Machine.execDoz rs ra rb s
  | .dozRc rs ra rb => Sys2Proof.Machine.execDozRc rs ra rb s
  | .dozOe rs ra rb => Sys2Proof.Machine.execDozOe rs ra rb s
  | .dozOeRc rs ra rb => Sys2Proof.Machine.execDozOeRc rs ra rb s
  | .abs rs ra => Sys2Proof.Machine.execAbs rs ra s
  | .absRc rs ra => Sys2Proof.Machine.execAbsRc rs ra s
  | .absOe rs ra => Sys2Proof.Machine.execAbsOe rs ra s
  | .absOeRc rs ra => Sys2Proof.Machine.execAbsOeRc rs ra s
  | .nabs rs ra => Sys2Proof.Machine.execNabs rs ra s
  | .nabsRc rs ra => Sys2Proof.Machine.execNabsRc rs ra s
  | .nabsOe rs ra => Sys2Proof.Machine.execNabsOe rs ra s
  | .nabsOeRc rs ra => Sys2Proof.Machine.execNabsOeRc rs ra s
  | .mrOr rs ra rb => Sys2Proof.Machine.execMrOr rs ra rb s
  | .mrOrRc rs ra rb => Sys2Proof.Machine.execMrOrRc rs ra rb s
  | .and rs ra rb => Sys2Proof.Machine.execAnd rs ra rb s
  | .andRc rs ra rb => Sys2Proof.Machine.execAndRc rs ra rb s
  | .andc rs ra rb => Sys2Proof.Machine.execAndc rs ra rb s
  | .andcRc rs ra rb => Sys2Proof.Machine.execAndcRc rs ra rb s
  | .nor rs ra rb => Sys2Proof.Machine.execNor rs ra rb s
  | .norRc rs ra rb => Sys2Proof.Machine.execNorRc rs ra rb s
  | .eqv rs ra rb => Sys2Proof.Machine.execEqv rs ra rb s
  | .eqvRc rs ra rb => Sys2Proof.Machine.execEqvRc rs ra rb s
  | .xor rs ra rb => Sys2Proof.Machine.execXor rs ra rb s
  | .xorRc rs ra rb => Sys2Proof.Machine.execXorRc rs ra rb s
  | .orc rs ra rb => Sys2Proof.Machine.execOrc rs ra rb s
  | .orcRc rs ra rb => Sys2Proof.Machine.execOrcRc rs ra rb s
  | .or rs ra rb => Sys2Proof.Machine.execOr rs ra rb s
  | .orRc rs ra rb => Sys2Proof.Machine.execOrRc rs ra rb s
  | .nand rs ra rb => Sys2Proof.Machine.execNand rs ra rb s
  | .nandRc rs ra rb => Sys2Proof.Machine.execNandRc rs ra rb s
  | .lwzx rs ra rb => Sys2Proof.Machine.execLwzx rs ra rb s
  | .lwzux rs ra rb => Sys2Proof.Machine.execLwzux rs ra rb s
  | .lbzx rs ra rb => Sys2Proof.Machine.execLbzx rs ra rb s
  | .lbzux rs ra rb => Sys2Proof.Machine.execLbzux rs ra rb s
  | .stwx rs ra rb => Sys2Proof.Machine.execStwx rs ra rb s
  | .stwux rs ra rb => Sys2Proof.Machine.execStwux rs ra rb s
  | .stbx rs ra rb => Sys2Proof.Machine.execStbx rs ra rb s
  | .stbux rs ra rb => Sys2Proof.Machine.execStbux rs ra rb s
  | .lhzx rs ra rb => Sys2Proof.Machine.execLhzx rs ra rb s
  | .lhzux rs ra rb => Sys2Proof.Machine.execLhzux rs ra rb s
  | .lhax rs ra rb => Sys2Proof.Machine.execLhax rs ra rb s
  | .lhaux rs ra rb => Sys2Proof.Machine.execLhaux rs ra rb s
  | .sthx rs ra rb => Sys2Proof.Machine.execSthx rs ra rb s
  | .sthux rs ra rb => Sys2Proof.Machine.execSthux rs ra rb s
  | .lfsx rs ra rb => Sys2Proof.Machine.execLfsx rs ra rb s
  | .lfsux rs ra rb => Sys2Proof.Machine.execLfsux rs ra rb s
  | .lfdx rs ra rb => Sys2Proof.Machine.execLfdx rs ra rb s
  | .lfdux rs ra rb => Sys2Proof.Machine.execLfdux rs ra rb s
  | .stfsx rs ra rb => Sys2Proof.Machine.execStfsx rs ra rb s
  | .stfsux rs ra rb => Sys2Proof.Machine.execStfsux rs ra rb s
  | .stfdx rs ra rb => Sys2Proof.Machine.execStfdx rs ra rb s
  | .stfdux rs ra rb => Sys2Proof.Machine.execStfdux rs ra rb s
  | .tw rs ra rb => Sys2Proof.Machine.execTw rs ra rb s
  | .dcl code => Sys2Proof.Machine.execDcl code s

end Sys2Proof.Machine
end

