-- ==== Sys2Proof/Machine/Step.lean ====
section
/-! DEFINITION. One step: the host's next action takes effect, whole (R9, R11, R27 (b)). A `Decode` runs the instruction
its word reads as; with no action issued the block stays as it is (R213). -/

namespace Sys2Proof.Machine

/-- One step of the instance and its host. -/
def step (s : State) : Host.Outcome State Fault Refusal :=
  match s.pending with
  | [] => idle s
  | .loadAddr a :: rest => loadAddr a (s.withPending rest)
  | .decode code simplified :: rest => exec (decodeWord code simplified) (s.withPending rest)

/-- The state in which the very next step decodes the word `w`, the bits from `nbits` up zero: it is the next `Decode`
the host issues, with `simplified` = 1 (log 10); where `ADDR` is still unwritten it holds the address 0, as a
`LoadAddr(0)` before it leaves it (log 9). -/
def State.withFetchWord (s : State) (nbits w : Nat) : State :=
  { s with
    addr := some (s.addr.getD 0)
    pending := .decode (BitVec.ofNat 32 (w % 2 ^ nbits)) true :: s.pending }

end Sys2Proof.Machine
end

