-- ==== Sys2Proof/Machine/Packing.lean ====
section
/-! DEFINITION. The optional fixed-width packing of a record that R65 suggests. No rule and no step depends on it
(DESIGN CHOICE of the spec, D23; log 30). -/

namespace Sys2Proof.Machine

/-- One operand slot: 3 bits of kind and 32 bits of value (R65). -/
structure PackedOperand where
  kind : BitVec 3
  value : BitVec 32
  deriving DecidableEq, Repr

/-- The packed record (R65): `illegal`, the mnemonic's 8 bytes, the number of operands, and three operand slots. -/
structure PackedRecord where
  illegal : Bool
  mnem : BitVec 64
  nops : BitVec 2
  slot0 : PackedOperand
  slot1 : PackedOperand
  slot2 : PackedOperand
  deriving DecidableEq, Repr

/-- An operand's kind and its value zero-extended to 32 bits (R65). -/
def packOperand : Operand → PackedOperand
  | .gpr n => ⟨0, n.setWidth 32⟩
  | .fpr n => ⟨1, n.setWidth 32⟩
  | .imm16 v => ⟨2, v.setWidth 32⟩
  | .addr32 v => ⟨3, v⟩
  | .raw32 v => ⟨4, v⟩
  | .trapOn n => ⟨5, n.setWidth 32⟩

/-- An unused slot is zero (R65). -/
def emptySlot : PackedOperand := ⟨0, 0⟩

/-- The mnemonic's bytes, "left-aligned, unused bytes zero" (R65): the first character in the most significant byte
(DESIGN CHOICE, log 30). R65 gives the field of 8 bytes for the default ROMs. A mnemonic of more than 8 characters,
which other legal ROMs may hold, is packed as its first 8 and the rest is dropped (DESIGN CHOICE, log 30). -/
def packMnemonic (m : String) : BitVec 64 :=
  (List.range mnemonicColumn).foldl
    (fun acc k => acc <<< 8 ||| BitVec.ofNat 64 ((m.toList[k]?.map Char.toNat).getD 0)) 0

/-- The packing of a record (R65). -/
def pack (d : Decoded) : PackedRecord where
  illegal := d.illegal
  mnem := packMnemonic d.mnem
  nops := BitVec.ofNat 2 d.ops.length
  slot0 := (d.ops[0]?.map packOperand).getD emptySlot
  slot1 := (d.ops[1]?.map packOperand).getD emptySlot
  slot2 := (d.ops[2]?.map packOperand).getD emptySlot

end Sys2Proof.Machine
end

