-- ==== Sys2Proof/Machine/System.lean ====
section
/-! DEFINITION. A system of any number of decoder instances (R211): each has its own `ADDR`, `OUT` and host, and no state
is shared (R27 (d)). Which instance acts next is the caller's choice at each step. -/

namespace Sys2Proof.Machine

/-- A system: its instances in a list. The spec gives instances no identifiers (R211); the place in the list is the
model's name for one (DESIGN CHOICE, log 23). -/
structure System where
  instances : List State
  deriving DecidableEq, Repr

/-- The instance at place `k` takes one step and every other instance stays as it is (R27 (d), R211). Where there is no
such instance nothing happens. -/
def System.stepAt (k : Nat) (y : System) : Host.Outcome System Fault Refusal :=
  match y.instances[k]? with
  | none => .next y
  | some s =>
    match step s with
    | .next t => .next { instances := y.instances.set k t }
    | .fault r => .fault r
    | .refused r => .refused r

end Sys2Proof.Machine
end

