-- ==== Sys2Proof/Machine/Table.lean ====
section
/-! DEFINITION. The opcode table as R39 describes it: for each instruction its row, with the pair of mask and match, the
condition and the priority, and when a row matches a word. -/

namespace Sys2Proof.Machine

/-- A row of the opcode table (R39). -/
structure TableRow where
  /-- The mnemonic, suffixes included. -/
  mnem : String
  /-- The row's word must agree with `pattern` on the bits of `mask`. -/
  pattern : Word
  mask : Word
  /-- The row applies only under `simplified = 1`. -/
  needsSimplified : Bool
  /-- The row applies only when `code[25:21] = code[15:11]`. -/
  needsRsEqRb : Bool
  /-- Among the rows that match a word, the one with the smallest priority wins. -/
  priority : Nat
  deriving DecidableEq, Repr

/-- A row matches a word (R39): "when `code & mask = match` and every entry of its `cond` object holds". -/
def TableRow.hits (row : TableRow) (code : Word) (simplified : Bool) : Bool :=
  code &&& row.mask == row.pattern && (!row.needsSimplified || simplified) &&
    (!row.needsRsEqRb || rsOf code == rbOf code)

/-- The row of an instruction. -/
def tableRow : Instr → TableRow
  | .li _ _ => ⟨"li", 0x38000000, 0xFC1F0000, true, false, 1⟩
  | .addi _ _ _ => ⟨"addi", 0x38000000, 0xFC000000, false, false, 2⟩
  | .nop => ⟨"nop", 0x60000000, 0xFFFFFFFF, true, false, 1⟩
  | .mrOri _ _ => ⟨"mr", 0x60000000, 0xFC00FFFF, true, false, 2⟩
  | .ori _ _ _ => ⟨"ori", 0x60000000, 0xFC000000, false, false, 3⟩
  | .b _ => ⟨"b", 0x48000000, 0xFC000003, false, false, 1⟩
  | .bl _ => ⟨"bl", 0x48000001, 0xFC000003, false, false, 1⟩
  | .ba _ => ⟨"ba", 0x48000002, 0xFC000003, false, false, 1⟩
  | .bla _ => ⟨"bla", 0x48000003, 0xFC000003, false, false, 1⟩
  | .subfc _ _ _ => ⟨"subfc", 0x7C000010, 0xFC0007FF, false, false, 1⟩
  | .subfcRc _ _ _ => ⟨"subfc.", 0x7C000011, 0xFC0007FF, false, false, 1⟩
  | .subfcOe _ _ _ => ⟨"subfco", 0x7C000410, 0xFC0007FF, false, false, 1⟩
  | .subfcOeRc _ _ _ => ⟨"subfco.", 0x7C000411, 0xFC0007FF, false, false, 1⟩
  | .subf _ _ _ => ⟨"subf", 0x7C000050, 0xFC0007FF, false, false, 1⟩
  | .subfRc _ _ _ => ⟨"subf.", 0x7C000051, 0xFC0007FF, false, false, 1⟩
  | .subfOe _ _ _ => ⟨"subfo", 0x7C000450, 0xFC0007FF, false, false, 1⟩
  | .subfOeRc _ _ _ => ⟨"subfo.", 0x7C000451, 0xFC0007FF, false, false, 1⟩
  | .neg _ _ => ⟨"neg", 0x7C0000D0, 0xFC00FFFF, false, false, 1⟩
  | .negRc _ _ => ⟨"neg.", 0x7C0000D1, 0xFC00FFFF, false, false, 1⟩
  | .negOe _ _ => ⟨"nego", 0x7C0004D0, 0xFC00FFFF, false, false, 1⟩
  | .negOeRc _ _ => ⟨"nego.", 0x7C0004D1, 0xFC00FFFF, false, false, 1⟩
  | .subfe _ _ _ => ⟨"subfe", 0x7C000110, 0xFC0007FF, false, false, 1⟩
  | .subfeRc _ _ _ => ⟨"subfe.", 0x7C000111, 0xFC0007FF, false, false, 1⟩
  | .subfeOe _ _ _ => ⟨"subfeo", 0x7C000510, 0xFC0007FF, false, false, 1⟩
  | .subfeOeRc _ _ _ => ⟨"subfeo.", 0x7C000511, 0xFC0007FF, false, false, 1⟩
  | .subfze _ _ => ⟨"subfze", 0x7C000190, 0xFC00FFFF, false, false, 1⟩
  | .subfzeRc _ _ => ⟨"subfze.", 0x7C000191, 0xFC00FFFF, false, false, 1⟩
  | .subfzeOe _ _ => ⟨"subfzeo", 0x7C000590, 0xFC00FFFF, false, false, 1⟩
  | .subfzeOeRc _ _ => ⟨"subfzeo.", 0x7C000591, 0xFC00FFFF, false, false, 1⟩
  | .subfme _ _ => ⟨"subfme", 0x7C0001D0, 0xFC00FFFF, false, false, 1⟩
  | .subfmeRc _ _ => ⟨"subfme.", 0x7C0001D1, 0xFC00FFFF, false, false, 1⟩
  | .subfmeOe _ _ => ⟨"subfmeo", 0x7C0005D0, 0xFC00FFFF, false, false, 1⟩
  | .subfmeOeRc _ _ => ⟨"subfmeo.", 0x7C0005D1, 0xFC00FFFF, false, false, 1⟩
  | .doz _ _ _ => ⟨"doz", 0x7C000210, 0xFC0007FF, false, false, 1⟩
  | .dozRc _ _ _ => ⟨"doz.", 0x7C000211, 0xFC0007FF, false, false, 1⟩
  | .dozOe _ _ _ => ⟨"dozo", 0x7C000610, 0xFC0007FF, false, false, 1⟩
  | .dozOeRc _ _ _ => ⟨"dozo.", 0x7C000611, 0xFC0007FF, false, false, 1⟩
  | .abs _ _ => ⟨"abs", 0x7C0002D0, 0xFC00FFFF, false, false, 1⟩
  | .absRc _ _ => ⟨"abs.", 0x7C0002D1, 0xFC00FFFF, false, false, 1⟩
  | .absOe _ _ => ⟨"abso", 0x7C0006D0, 0xFC00FFFF, false, false, 1⟩
  | .absOeRc _ _ => ⟨"abso.", 0x7C0006D1, 0xFC00FFFF, false, false, 1⟩
  | .nabs _ _ => ⟨"nabs", 0x7C0003D0, 0xFC00FFFF, false, false, 1⟩
  | .nabsRc _ _ => ⟨"nabs.", 0x7C0003D1, 0xFC00FFFF, false, false, 1⟩
  | .nabsOe _ _ => ⟨"nabso", 0x7C0007D0, 0xFC00FFFF, false, false, 1⟩
  | .nabsOeRc _ _ => ⟨"nabso.", 0x7C0007D1, 0xFC00FFFF, false, false, 1⟩
  | .mrOr _ _ _ => ⟨"mr", 0x7C000378, 0xFC0007FF, true, true, 1⟩
  | .mrOrRc _ _ _ => ⟨"mr.", 0x7C000379, 0xFC0007FF, true, true, 1⟩
  | .and _ _ _ => ⟨"and", 0x7C000038, 0xFC0007FF, false, false, 2⟩
  | .andRc _ _ _ => ⟨"and.", 0x7C000039, 0xFC0007FF, false, false, 2⟩
  | .andc _ _ _ => ⟨"andc", 0x7C000078, 0xFC0007FF, false, false, 2⟩
  | .andcRc _ _ _ => ⟨"andc.", 0x7C000079, 0xFC0007FF, false, false, 2⟩
  | .nor _ _ _ => ⟨"nor", 0x7C0000F8, 0xFC0007FF, false, false, 2⟩
  | .norRc _ _ _ => ⟨"nor.", 0x7C0000F9, 0xFC0007FF, false, false, 2⟩
  | .eqv _ _ _ => ⟨"eqv", 0x7C000238, 0xFC0007FF, false, false, 2⟩
  | .eqvRc _ _ _ => ⟨"eqv.", 0x7C000239, 0xFC0007FF, false, false, 2⟩
  | .xor _ _ _ => ⟨"xor", 0x7C000278, 0xFC0007FF, false, false, 2⟩
  | .xorRc _ _ _ => ⟨"xor.", 0x7C000279, 0xFC0007FF, false, false, 2⟩
  | .orc _ _ _ => ⟨"orc", 0x7C000338, 0xFC0007FF, false, false, 2⟩
  | .orcRc _ _ _ => ⟨"orc.", 0x7C000339, 0xFC0007FF, false, false, 2⟩
  | .or _ _ _ => ⟨"or", 0x7C000378, 0xFC0007FF, false, false, 2⟩
  | .orRc _ _ _ => ⟨"or.", 0x7C000379, 0xFC0007FF, false, false, 2⟩
  | .nand _ _ _ => ⟨"nand", 0x7C0003B8, 0xFC0007FF, false, false, 2⟩
  | .nandRc _ _ _ => ⟨"nand.", 0x7C0003B9, 0xFC0007FF, false, false, 2⟩
  | .lwzx _ _ _ => ⟨"lwzx", 0x7C00002E, 0xFC0007FF, false, false, 1⟩
  | .lwzux _ _ _ => ⟨"lwzux", 0x7C00006E, 0xFC0007FF, false, false, 1⟩
  | .lbzx _ _ _ => ⟨"lbzx", 0x7C0000AE, 0xFC0007FF, false, false, 1⟩
  | .lbzux _ _ _ => ⟨"lbzux", 0x7C0000EE, 0xFC0007FF, false, false, 1⟩
  | .stwx _ _ _ => ⟨"stwx", 0x7C00012E, 0xFC0007FF, false, false, 1⟩
  | .stwux _ _ _ => ⟨"stwux", 0x7C00016E, 0xFC0007FF, false, false, 1⟩
  | .stbx _ _ _ => ⟨"stbx", 0x7C0001AE, 0xFC0007FF, false, false, 1⟩
  | .stbux _ _ _ => ⟨"stbux", 0x7C0001EE, 0xFC0007FF, false, false, 1⟩
  | .lhzx _ _ _ => ⟨"lhzx", 0x7C00022E, 0xFC0007FF, false, false, 1⟩
  | .lhzux _ _ _ => ⟨"lhzux", 0x7C00026E, 0xFC0007FF, false, false, 1⟩
  | .lhax _ _ _ => ⟨"lhax", 0x7C0002AE, 0xFC0007FF, false, false, 1⟩
  | .lhaux _ _ _ => ⟨"lhaux", 0x7C0002EE, 0xFC0007FF, false, false, 1⟩
  | .sthx _ _ _ => ⟨"sthx", 0x7C00032E, 0xFC0007FF, false, false, 1⟩
  | .sthux _ _ _ => ⟨"sthux", 0x7C00036E, 0xFC0007FF, false, false, 1⟩
  | .lfsx _ _ _ => ⟨"lfsx", 0x7C00042E, 0xFC0007FF, false, false, 1⟩
  | .lfsux _ _ _ => ⟨"lfsux", 0x7C00046E, 0xFC0007FF, false, false, 1⟩
  | .lfdx _ _ _ => ⟨"lfdx", 0x7C0004AE, 0xFC0007FF, false, false, 1⟩
  | .lfdux _ _ _ => ⟨"lfdux", 0x7C0004EE, 0xFC0007FF, false, false, 1⟩
  | .stfsx _ _ _ => ⟨"stfsx", 0x7C00052E, 0xFC0007FF, false, false, 1⟩
  | .stfsux _ _ _ => ⟨"stfsux", 0x7C00056E, 0xFC0007FF, false, false, 1⟩
  | .stfdx _ _ _ => ⟨"stfdx", 0x7C0005AE, 0xFC0007FF, false, false, 1⟩
  | .stfdux _ _ _ => ⟨"stfdux", 0x7C0005EE, 0xFC0007FF, false, false, 1⟩
  | .tw _ _ _ => ⟨"tw", 0x7C000008, 0xFC0007FF, false, false, 1⟩
  | .dcl _ => ⟨"dc.l", 0x00000000, 0x00000000, false, false, 9⟩

end Sys2Proof.Machine
end

