-- ==== Sys2Proof/Machine/Block.lean ====
section
/-! DEFINITION. The block as the spec writes it down, for arbitrary parameters (R6, 93 part 2): the handlers as functions
of `(code, addr, simplified)` (R77), the two-tier router and its families with their ROMs, the decode function (R70) and
one step of an instance with these parameters. The machine of Machine/Step.lean is this block at the default parameters,
read through the opcode table; that the two agree is a statement of its own. -/

namespace Sys2Proof.Machine

/-- `H_ADDI` (43_immediate section 1). -/
def handleAddi (code : Word) (simplified : Bool) : Decoded :=
  let rd := rsOf code
  let ra := raOf code
  let imm := immOf code
  if ra = 0 ∧ simplified then ⟨false, "li", [.gpr rd, .imm16 imm]⟩
  else ⟨false, "addi", [.gpr rd, .gpr ra, .imm16 imm]⟩

/-- `H_ORI` (43_immediate section 2), its three tests in the order of R85. -/
def handleOri (code : Word) (simplified : Bool) : Decoded :=
  let rs := rsOf code
  let ra := raOf code
  let imm := immOf code
  if ra = 0 ∧ rs = 0 ∧ imm = 0 ∧ simplified then ⟨false, "nop", []⟩
  else if imm = 0 ∧ simplified then ⟨false, "mr", [.gpr ra, .gpr rs]⟩
  else ⟨false, "ori", [.gpr rs, .gpr ra, .imm16 imm]⟩

/-- The mnemonic of an unconditional branch, entry `(AA << 1) | LK` of the four (R90). -/
def branchMnemonic (aa lk : Bool) : String :=
  ["b", "bl", "ba", "bla"].getD (2 * aa.toNat + lk.toNat) "b"

/-- The displacement of a branch word, from bits 25:2 where they stand (R34). -/
def branchDisplacement (code : Word) : Word :=
  signExtend (code &&& 0x03FFFFFC#32) 25

/-- `H_B` (R90, R91). -/
def handleBranch (code addr : Word) : Decoded :=
  let disp := branchDisplacement code
  let target := if aaOf code then disp else addr + disp
  ⟨false, branchMnemonic (aaOf code) (lkOf code), [.addr32 target]⟩

/-- `SUBFAM` (R110). -/
def handleSubtract (cfg : Config) (code : Word) : Decoded :=
  match rom cfg.subRom (idx4Of code).toNat with
  | none => illegalRecord code
  | some m =>
    let mnem := m ++ suffix (oeOf code) (rcOf code)
    if twoOperandIndex (idx4Of code) then
      if rbOf code ≠ 0 then illegalRecord code
      else ⟨false, mnem, [.gpr (rsOf code), .gpr (raOf code)]⟩
    else ⟨false, mnem, [.gpr (rsOf code), .gpr (raOf code), .gpr (rbOf code)]⟩

/-- `LOGICFAM` (R130); the move-register idiom is tested before the ROM is read (R139). -/
def handleLogical (cfg : Config) (code : Word) (simplified : Bool) : Decoded :=
  if idx5Of code = idxOr ∧ rsOf code = rbOf code ∧ simplified then
    ⟨false, if rcOf code then "mr." else "mr", [.gpr (raOf code), .gpr (rsOf code)]⟩
  else
    match rom cfg.logicRom (idx5Of code).toNat with
    | none => illegalRecord code
    | some m =>
      ⟨false, m ++ suffix false (rcOf code), [.gpr (raOf code), .gpr (rsOf code), .gpr (rbOf code)]⟩

/-- `LDSTFAM` (R150). -/
def handleLoadStore (cfg : Config) (code : Word) : Decoded :=
  if ldstLastIndex < (idx5Of code).toNat then illegalRecord code
  else if rcOf code then illegalRecord code
  else
    match rom cfg.ldstRom (idx5Of code).toNat with
    | none => illegalRecord code
    | some m =>
      if (idx5Of code).toNat ≤ ldstLastInteger then
        ⟨false, m, [.gpr (rsOf code), .gpr (raOf code), .gpr (rbOf code)]⟩
      else ⟨false, m, [.fpr (rsOf code), .gpr (raOf code), .gpr (rbOf code)]⟩

/-- `TW` (R180). -/
def handleTw (code : Word) : Decoded :=
  if rcOf code then illegalRecord code
  else ⟨false, "tw", [.trapOn (rsOf code), .gpr (raOf code), .gpr (rbOf code)]⟩

/-- `TIERB` (R102). -/
def handleTierB (code : Word) : Decoded :=
  if extOpcOf code = extOpcTw then handleTw code else illegalRecord code

/-- `H_EXT` (R101), tier A before tier B (R104). -/
def handleExt (cfg : Config) (code : Word) (simplified : Bool) : Decoded :=
  if selOf code = selSubtract then handleSubtract cfg code
  else if selOf code = selLogical then handleLogical cfg code simplified
  else if selOf code = selLoadStore then handleLoadStore cfg code
  else handleTierB code

/-- `decode(code, addr, simplified)` (R70): the handler that `DISPATCH` names for the primary opcode. -/
def decodeRecord (cfg : Config) (code addr : Word) (simplified : Bool) : Decoded :=
  match dispatch cfg (opcOf code) with
  | .addi => handleAddi code simplified
  | .ori => handleOri code simplified
  | .branch => handleBranch code addr
  | .ext => handleExt cfg code simplified
  | .illegal => illegalRecord code

/-- One step of an instance with these parameters: the host action of R11, or none. -/
def blockStep (cfg : Config) (s : State) : Host.Outcome State Fault Refusal :=
  match s.pending with
  | [] => idle s
  | .loadAddr a :: rest => loadAddr a (s.withPending rest)
  | .decode code simplified :: rest =>
    transact (fun addr => decodeRecord cfg code addr simplified) (s.withPending rest)

end Sys2Proof.Machine
end

