-- ==== Sys2Proof/Safety.lean ====
section
/-! DEFINITION. The terms the statements use: what it is for an instruction to deliver a record, what holds of a state
between host actions, and the text of a decode. -/

namespace Sys2Proof.Machine

/-- The instruction completes on every state whose `ADDR` is written: `OUT` holds the record that `record` gives for the
address the transaction saw, the cursor has advanced by 4, the record's text has been returned, and the host's other
actions are as they were (R70, R73). All four fields of the state are given, so this is the frame too. -/
def Delivers (i : Instr) (record : Word → Decoded) : Prop :=
  ∀ (s : State) (a : Word), s.addr = some a →
    exec i s = .next
      { addr := some (a + 4), out := some (record a), pending := s.pending,
        texts := s.texts ++ [render (record a)] }

/-- A text the block may return: 3 to 24 characters, the first a lower-case letter (R63). -/
def textOk (t : String) : Bool :=
  decide (3 ≤ t.length) && decide (t.length ≤ 24) &&
    match t.toList with
    | [] => false
    | c :: _ => decide ('a' ≤ c) && decide (c ≤ 'z')

/-- What holds between host actions: a written `OUT` means `ADDR` has been written (R20, R221), the record in `OUT` is as
R53 says, the last text returned is its text (R11), and every text is as R63 says. -/
def State.Inv (s : State) : Prop :=
  (s.out ≠ none → s.addr ≠ none) ∧
  (∀ d, s.out = some d → d.wf = true) ∧
  s.texts.getLast? = s.out.map render ∧
  ∀ t ∈ s.texts, textOk t = true

/-- An action that is a `Decode`. -/
def HostAction.isDecode : HostAction → Bool
  | .decode _ _ => true
  | .loadAddr _ => false

/-- The text of the record that the block with these parameters gives (R11, R58). -/
def decodeText (cfg : Config) (code addr : Word) (simplified : Bool) : String :=
  render (decodeRecord cfg code addr simplified)

end Sys2Proof.Machine
end

