-- ==== Sys2Proof/Certificates/Slice0/Obligations.lean ====
section
/-! DEFINITION. The statements about this model. -/

open Sys2Proof Sys2Proof.Machine

/-- State.reset has ADDR unwritten and OUT unwritten (the spec's own decision D13, log 7), no pending host action and
no text returned (the model's choice, log 8); reading ADDR or OUT then is refused by name. That a read of ADDR is
refused is the model's reading of R20, which says it of OUT (DEDUCED, log 26). (10_state.md section 6 (decision D13);
70_reset_and_hazards.md section 1.) -/
def Obligations.ResetLeavesCursorAndOutputUnwritten : Prop :=
  State.reset.addr = none ∧ State.reset.out = none ∧ State.reset.pending = [] ∧ State.reset.texts = [] ∧
    readAddr State.reset = .error .addrUnwritten ∧ readOut State.reset = .error .outUnwritten

/-- State.reset meets State.Inv: a written OUT means ADDR has been written, the record in OUT is well formed, the last
text returned is its text, and every text is 3 to 24 characters with a lower-case letter first. That the clauses on
the returned texts hold at reset rests on the model's own list being empty there (DESIGN CHOICE, log 8), and those on
ADDR and OUT on both being unwritten (the spec's decision D13, log 7). (10_state.md section 6; 70_reset_and_hazards.md
section 2.) -/
def Obligations.ResetMeetsTheStateInvariant : Prop :=
  State.reset.Inv

/-- From every state that meets State.Inv (a written OUT means ADDR has been written; the record in OUT is well
formed; the last text returned is the text of OUT; every text returned is 3 to 24 characters with a lower-case letter
first), a step that answers a next state answers one that meets State.Inv, for every pending action, every word and
both values of simplified. The invariant is over all states, not over runs from reset. The clause of 3 to 24
characters holds with the default ROMs, whose contents are PRESUMED by the spec (R63 (c), D5, log 3). (10_state.md
sections 1 and 6; 41_formatter.md sections 1, 4 and 6; 70_reset_and_hazards.md section 2.) -/
def Obligations.EveryStepKeepsTheStateInvariant : Prop :=
  ∀ s t : State, s.Inv → step s = .next t → t.Inv

/-- A step answers a refusal r if and only if r is addrUnwritten, ADDR is unwritten and the next pending action is a
Decode; it never answers a fault. No word, and no value of simplified, is refused once ADDR is written (the refusal
itself is the spec's decision D13, log 7). (10_state.md section 6 (decision D13); 42_dispatch.md section 1;
93_implementation_defined.md part 1.) -/
def Obligations.DecodeIsRefusedExactlyWhileAddrIsUnwritten : Prop :=
  (∀ (s : State) (r : Refusal), step s = .refused r ↔
    r = .addrUnwritten ∧ s.addr = none ∧ ∃ code simplified rest, s.pending = .decode code simplified :: rest) ∧
  ∀ (s : State) (r : Fault), step s ≠ .fault r

/-- When the next action is LoadAddr(a), for any 32-bit a, aligned or not, a step answers the state with ADDR = a, the
action consumed, and OUT and the returned texts unchanged; reading ADDR then gives a. That the actions wait in a list
of the state is the model's choice (log 5). (10_state.md section 1 (the action LoadAddr); 20_memory.md section 3;
70_reset_and_hazards.md section 5.) -/
def Obligations.LoadAddrWritesTheCursorAndNothingElse : Prop :=
  ∀ (s : State) (a : Word) (rest : List HostAction), s.pending = .loadAddr a :: rest →
    ∃ t, step s = .next t ∧ t = { addr := some a, out := s.out, pending := rest, texts := s.texts } ∧
      readAddr t = .ok a

/-- With no action issued a step answers the same state: ADDR, OUT and the returned texts are unchanged. That such a
step exists at all is the model's choice (log 5). (60_exceptions.md section 4 (power states).) -/
def Obligations.StepWithNoActionHoldsTheState : Prop :=
  ∀ s : State, s.pending = [] → step s = .next s

/-- When the next action is Decode(code, simplified), a step is exec of the instruction that decodeWord reads from the
word, on the state with the action consumed and nothing else changed. That instruction is well formed under that value
of simplified. (10_state.md section 1; 42_dispatch.md section 1.) -/
def Obligations.StepRunsTheDecodedInstruction : Prop :=
  ∀ (s : State) (code : Word) (simplified : Bool) (rest : List HostAction) (i : Instr),
    s.pending = .decode code simplified :: rest → decodeWord code simplified = i →
      i.wf simplified = true ∧
        step s = exec i { addr := s.addr, out := s.out, pending := rest, texts := s.texts }

/-- For every state and every 32-bit word, the state withFetchWord gives is the same state with the word as its next
Decode under simplified = 1 and with ADDR = 0 where it was unwritten (the model's choices, logs 9 and 10); its next
step is exec of the instruction that decodeTableWord reads from the same word. (92_eei_decisions.md (D1, D26);
10_state.md section 1.) -/
def Obligations.FetchWordRunsAsTheNextInstruction : Prop :=
  ∀ (s : State) (w : Nat), w < 2 ^ 32 →
    ∃ i, decodeTableWord 32 w = some i ∧ i = decodeWord (BitVec.ofNat 32 w) true ∧
      step (s.withFetchWord 32 w) =
        exec i { addr := some (s.addr.getD 0), out := s.out, pending := s.pending, texts := s.texts }

/-- For every 32-bit word and both values of simplified, the instruction read is well formed: a simplified mnemonic
only under simplified = 1 and only for its words, the general form otherwise, and dc.l only for a word that one of the
conditions IL1 to IL9 makes illegal. The encodings are those of the default parameters, PRESUMED by the spec (opcodes
14 and 18: logs 1 and 2; the ROMs: log 3). (30_encoding.md sections 5 and 6; 41_formatter.md section 5.) -/
def Obligations.DecodingGivesAWellFormedInstruction : Prop :=
  ∀ (code : Word) (simplified : Bool), (decodeWord code simplified).wf simplified = true

/-- For each of the 2^32 words and both values of simplified, encode (decodeWord code simplified) = code: no bit of
any word, accepted or illegal, is dropped by the decoder. The same for the four bytes of the word. The encodings are
those of the default parameters, PRESUMED by the spec (opcodes 14 and 18: logs 1 and 2; the ROMs: log 3).
(30_encoding.md sections 2 and 3; 20_memory.md section 2.) -/
def Obligations.EncodingInvertsDecodingOnEveryWord : Prop :=
  ∀ (code : Word) (simplified : Bool),
    encode (decodeWord code simplified) = code ∧ encodeBytes (decodeWord code simplified) = bytesOfWord code

/-- For every instruction of every family and both values of simplified, if the instruction is well formed under that
setting then its word reads as that instruction, with every operand at every value; and its bytes, with any bytes
after them, read as that instruction and leave the rest. The encodings are those of the default parameters, PRESUMED
by the spec (opcodes 14 and 18: logs 1 and 2; the ROMs: log 3). (30_encoding.md sections 2 to 5; 41_formatter.md
section 5.) -/
def Obligations.DecodingInvertsEncodingOnWellFormedInstructions : Prop :=
  ∀ (i : Instr) (simplified : Bool), i.wf simplified = true →
    decodeWord (encode i) simplified = i ∧
      ∀ rest : List Byte, decodeBytes (encodeBytes i ++ rest) simplified = .ok (i, rest)

/-- For every word and both values of simplified, the opcode-table row of the instruction read matches the word (mask
and match, and its conditions), and every row that matches the word is that row or has a greater priority number:
among the rows that match, the row with the smallest priority wins, and no two rows tie. The rows are those of the
default parameters, PRESUMED by the spec (opcodes 14 and 18: logs 1 and 2; the ROMs: log 3). (30_encoding.md section 5
(decode order; opcode_table.json).) -/
def Obligations.DecodedInstructionHasTheWinningTableRow : Prop :=
  ∀ (code : Word) (simplified : Bool),
    (tableRow (decodeWord code simplified)).hits code simplified = true ∧
      ∀ j : Instr, (tableRow j).hits code simplified = true →
        tableRow j = tableRow (decodeWord code simplified) ∨
          (tableRow (decodeWord code simplified)).priority < (tableRow j).priority

/-- One word of each family, written out field by field from its format, reads as the instruction it stands for: li
and addi, ori, bl, subfco., neg, or and its mr form, lwzx, stfdux, tw and an illegal word. The readings are those of
the default parameters, PRESUMED by the spec (opcodes 14 and 18: logs 1 and 2; the ROMs: log 3). (30_encoding.md
sections 3 and 5; 95_test_vectors.md part 2.) -/
def Obligations.SampleWordsReadAsTheirInstructions : Prop :=
  decodeWord 0b001110_00011_00000_0000000000010000#32 true = .li 3 0x0010 ∧
  decodeWord 0b001110_00011_00000_0000000000010000#32 false = .addi 3 0 0x0010 ∧
  decodeWord 0b011000_00101_00100_0001001000110100#32 true = .ori 5 4 0x1234 ∧
  decodeWord 0b010010_000000000000000001000001_0_1#32 true = .bl 0x41 ∧
  decodeWord 0b011111_00011_00100_00101_1_0000_01000_1#32 false = .subfcOeRc 3 4 5 ∧
  decodeWord 0b011111_00011_00100_00000_0_0011_01000_0#32 false = .neg 3 4 ∧
  decodeWord 0b011111_00111_01001_00111_01101_11100_0#32 false = .or 7 9 7 ∧
  decodeWord 0b011111_00111_01001_00111_01101_11100_0#32 true = .mrOr 7 9 7 ∧
  decodeWord 0b011111_00011_00100_00101_00000_10111_0#32 false = .lwzx 3 4 5 ∧
  decodeWord 0b011111_11111_11111_11111_10111_10111_0#32 false = .stfdux 31 31 31 ∧
  decodeWord 0b011111_00100_00011_00101_0000000100_0#32 false = .tw 4 3 5 ∧
  decodeWord 0b011111_00011_00100_00101_0_0011_01000_0#32 true = .dcl 0x7C6428D0

/-- The word assembled from the bytes b0, b1, b2, b3 at ascending addresses has the value b0*2^24 + b1*2^16 + b2*2^8 +
b3; its bits 31:24 are b0; its bytes at ascending addresses are those four; and four bytes read as the instruction of
that word, whatever follows, while fewer than four are rejected as truncated. (20_memory.md section 2; 30_encoding.md
section 1.) -/
def Obligations.BytesOfAWordAreBigEndian : Prop :=
  (∀ b0 b1 b2 b3 : Byte,
    (wordOfBytes b0 b1 b2 b3).toNat = b0.toNat * 2 ^ 24 + b1.toNat * 2 ^ 16 + b2.toNat * 2 ^ 8 + b3.toNat ∧
    (wordOfBytes b0 b1 b2 b3).extractLsb' 24 8 = b0 ∧
    bytesOfWord (wordOfBytes b0 b1 b2 b3) = [b0, b1, b2, b3] ∧
    ∀ (rest : List Byte) (simplified : Bool),
      decodeBytes (b0 :: b1 :: b2 :: b3 :: rest) simplified =
        .ok (decodeWord (wordOfBytes b0 b1 b2 b3) simplified, rest)) ∧
  ∀ (bytes : List Byte) (simplified : Bool), bytes.length < 4 → decodeBytes bytes simplified = .error .truncated

/-- For every state, one step of the machine (the word read as an instruction of the opcode table, then that
instruction's own meaning) is one step of the block as the spec writes it down (dispatch ROM, handler, router,
mnemonic ROMs, record) at the default parameters (PRESUMED by the spec, logs 1 to 3): same next state, same refusal.
(42_dispatch.md section 1; 45_ext_group.md section 1; 46_ext_arith.md sections 1 to 3; 47_ext_logic.md sections 1 to
4; 48_ext_ldst.md sections 1 to 3; 49_ext_trap.md; 10_state.md section 4.) -/
def Obligations.StepRefinesTheBlockAtTheDefaultParameters : Prop :=
  ∀ s : State, step s = blockStep defaultConfig s

/-- li delivers (li; rd, imm), addi (addi; rd, ra, imm), nop (nop; no operand), mr from or-immediate (mr; ra, rs) and
ori (ori; rs, ra, imm), the immediate raw, for every value of the fields. For mr with rs and ra both zero, which R84
excludes and no word reads as, the record is the model's choice (DESIGN CHOICE, log 28). On every state whose ADDR is
written each completes: OUT holds the record, ADDR has advanced by 4 (modulo 2^32: the spec's decision D2, log 11),
the text of the record has been returned, and nothing else of the state has changed. (43_immediate.md sections 1 and
2; 42_dispatch.md section 1 (decision D2).) -/
def Obligations.ImmediateInstructionsDeliverTheirRecords : Prop :=
  ∀ (rd rs ra : RegNum) (imm : BitVec 16),
    Delivers (.li rd imm) (fun _ => ⟨false, "li", [.gpr rd, .imm16 imm]⟩) ∧
    Delivers (.addi rd ra imm) (fun _ => ⟨false, "addi", [.gpr rd, .gpr ra, .imm16 imm]⟩) ∧
    Delivers (.nop) (fun _ => ⟨false, "nop", []⟩) ∧
    Delivers (.mrOri rs ra) (fun _ => ⟨false, "mr", [.gpr ra, .gpr rs]⟩) ∧
    Delivers (.ori rs ra imm) (fun _ => ⟨false, "ori", [.gpr rs, .gpr ra, .imm16 imm]⟩)

/-- b and bl deliver the target ADDR + sext(LI24 ++ 00) modulo 2^32, with ADDR the address before the advance; ba and
bla deliver sext(LI24 ++ 00) alone, whatever ADDR is. The cursor is not moved to the target. On every state whose ADDR
is written each completes: OUT holds the record, ADDR has advanced by 4 (modulo 2^32: the spec's decision D2, log 11),
the text of the record has been returned, and nothing else of the state has changed. That the sum of the target wraps
is D2 too. (44_branch.md sections 1 and 2; 30_encoding.md section 4; 42_dispatch.md section 1 (decision D2).) -/
def Obligations.BranchesDeliverTheirTargets : Prop :=
  ∀ li24 : BitVec 24,
    Delivers (.b li24) (fun a => ⟨false, "b", [.addr32 (a + (li24 ++ 0#2).signExtend 32)]⟩) ∧
    Delivers (.bl li24) (fun a => ⟨false, "bl", [.addr32 (a + (li24 ++ 0#2).signExtend 32)]⟩) ∧
    Delivers (.ba li24) (fun _ => ⟨false, "ba", [.addr32 ((li24 ++ 0#2).signExtend 32)]⟩) ∧
    Delivers (.bla li24) (fun _ => ⟨false, "bla", [.addr32 ((li24 ++ 0#2).signExtend 32)]⟩)

/-- Each of subfc, subf, subfe and doz, plain and with the suffixes ., o and o., delivers its spelling with the
operands rs, ra, rb, for all values of the three fields, equal or zero. The spellings are PRESUMED by the spec (D5,
log 3). On every state whose ADDR is written each completes: OUT holds the record, ADDR has advanced by 4 (modulo
2^32: the spec's decision D2, log 11), the text of the record has been returned, and nothing else of the state has
changed. (46_ext_arith.md sections 1 and 2; 41_formatter.md section 4; 42_dispatch.md section 1 (decision D2).) -/
def Obligations.ThreeOperandSubtractsDeliverTheirRecords : Prop :=
  ∀ rs ra rb : RegNum,
    Delivers (.subfc rs ra rb) (fun _ => ⟨false, "subfc", [.gpr rs, .gpr ra, .gpr rb]⟩) ∧
    Delivers (.subfcRc rs ra rb) (fun _ => ⟨false, "subfc.", [.gpr rs, .gpr ra, .gpr rb]⟩) ∧
    Delivers (.subfcOe rs ra rb) (fun _ => ⟨false, "subfco", [.gpr rs, .gpr ra, .gpr rb]⟩) ∧
    Delivers (.subfcOeRc rs ra rb) (fun _ => ⟨false, "subfco.", [.gpr rs, .gpr ra, .gpr rb]⟩) ∧
    Delivers (.subf rs ra rb) (fun _ => ⟨false, "subf", [.gpr rs, .gpr ra, .gpr rb]⟩) ∧
    Delivers (.subfRc rs ra rb) (fun _ => ⟨false, "subf.", [.gpr rs, .gpr ra, .gpr rb]⟩) ∧
    Delivers (.subfOe rs ra rb) (fun _ => ⟨false, "subfo", [.gpr rs, .gpr ra, .gpr rb]⟩) ∧
    Delivers (.subfOeRc rs ra rb) (fun _ => ⟨false, "subfo.", [.gpr rs, .gpr ra, .gpr rb]⟩) ∧
    Delivers (.subfe rs ra rb) (fun _ => ⟨false, "subfe", [.gpr rs, .gpr ra, .gpr rb]⟩) ∧
    Delivers (.subfeRc rs ra rb) (fun _ => ⟨false, "subfe.", [.gpr rs, .gpr ra, .gpr rb]⟩) ∧
    Delivers (.subfeOe rs ra rb) (fun _ => ⟨false, "subfeo", [.gpr rs, .gpr ra, .gpr rb]⟩) ∧
    Delivers (.subfeOeRc rs ra rb) (fun _ => ⟨false, "subfeo.", [.gpr rs, .gpr ra, .gpr rb]⟩) ∧
    Delivers (.doz rs ra rb) (fun _ => ⟨false, "doz", [.gpr rs, .gpr ra, .gpr rb]⟩) ∧
    Delivers (.dozRc rs ra rb) (fun _ => ⟨false, "doz.", [.gpr rs, .gpr ra, .gpr rb]⟩) ∧
    Delivers (.dozOe rs ra rb) (fun _ => ⟨false, "dozo", [.gpr rs, .gpr ra, .gpr rb]⟩) ∧
    Delivers (.dozOeRc rs ra rb) (fun _ => ⟨false, "dozo.", [.gpr rs, .gpr ra, .gpr rb]⟩)

/-- Each of neg, subfze, subfme, abs and nabs, plain and with the suffixes ., o and o., delivers its spelling with the
operands rs, ra (which two are printed is the spec's decision D7, log 16), for all values of the fields. The spellings
are PRESUMED by the spec (D5, log 3). On every state whose ADDR is written each completes: OUT holds the record, ADDR
has advanced by 4 (modulo 2^32: the spec's decision D2, log 11), the text of the record has been returned, and nothing
else of the state has changed. (46_ext_arith.md sections 1 and 2 (decision D7); 41_formatter.md section 4;
42_dispatch.md section 1 (decision D2).) -/
def Obligations.TwoOperandSubtractsDeliverTheirRecords : Prop :=
  ∀ rs ra : RegNum,
    Delivers (.neg rs ra) (fun _ => ⟨false, "neg", [.gpr rs, .gpr ra]⟩) ∧
    Delivers (.negRc rs ra) (fun _ => ⟨false, "neg.", [.gpr rs, .gpr ra]⟩) ∧
    Delivers (.negOe rs ra) (fun _ => ⟨false, "nego", [.gpr rs, .gpr ra]⟩) ∧
    Delivers (.negOeRc rs ra) (fun _ => ⟨false, "nego.", [.gpr rs, .gpr ra]⟩) ∧
    Delivers (.subfze rs ra) (fun _ => ⟨false, "subfze", [.gpr rs, .gpr ra]⟩) ∧
    Delivers (.subfzeRc rs ra) (fun _ => ⟨false, "subfze.", [.gpr rs, .gpr ra]⟩) ∧
    Delivers (.subfzeOe rs ra) (fun _ => ⟨false, "subfzeo", [.gpr rs, .gpr ra]⟩) ∧
    Delivers (.subfzeOeRc rs ra) (fun _ => ⟨false, "subfzeo.", [.gpr rs, .gpr ra]⟩) ∧
    Delivers (.subfme rs ra) (fun _ => ⟨false, "subfme", [.gpr rs, .gpr ra]⟩) ∧
    Delivers (.subfmeRc rs ra) (fun _ => ⟨false, "subfme.", [.gpr rs, .gpr ra]⟩) ∧
    Delivers (.subfmeOe rs ra) (fun _ => ⟨false, "subfmeo", [.gpr rs, .gpr ra]⟩) ∧
    Delivers (.subfmeOeRc rs ra) (fun _ => ⟨false, "subfmeo.", [.gpr rs, .gpr ra]⟩) ∧
    Delivers (.abs rs ra) (fun _ => ⟨false, "abs", [.gpr rs, .gpr ra]⟩) ∧
    Delivers (.absRc rs ra) (fun _ => ⟨false, "abs.", [.gpr rs, .gpr ra]⟩) ∧
    Delivers (.absOe rs ra) (fun _ => ⟨false, "abso", [.gpr rs, .gpr ra]⟩) ∧
    Delivers (.absOeRc rs ra) (fun _ => ⟨false, "abso.", [.gpr rs, .gpr ra]⟩) ∧
    Delivers (.nabs rs ra) (fun _ => ⟨false, "nabs", [.gpr rs, .gpr ra]⟩) ∧
    Delivers (.nabsRc rs ra) (fun _ => ⟨false, "nabs.", [.gpr rs, .gpr ra]⟩) ∧
    Delivers (.nabsOe rs ra) (fun _ => ⟨false, "nabso", [.gpr rs, .gpr ra]⟩) ∧
    Delivers (.nabsOeRc rs ra) (fun _ => ⟨false, "nabso.", [.gpr rs, .gpr ra]⟩)

/-- Each of and, andc, nor, eqv, xor, orc, or and nand, with and without ., delivers its spelling with the operands
ra, rs, rb in that order, for all values of the three fields. The spellings, all but or, are PRESUMED by the spec (D5,
log 3). On every state whose ADDR is written each completes: OUT holds the record, ADDR has advanced by 4 (modulo
2^32: the spec's decision D2, log 11), the text of the record has been returned, and nothing else of the state has
changed. (47_ext_logic.md sections 1 and 2; 41_formatter.md section 4; 42_dispatch.md section 1 (decision D2).) -/
def Obligations.LogicalInstructionsDeliverTheirRecords : Prop :=
  ∀ rs ra rb : RegNum,
    Delivers (.and rs ra rb) (fun _ => ⟨false, "and", [.gpr ra, .gpr rs, .gpr rb]⟩) ∧
    Delivers (.andRc rs ra rb) (fun _ => ⟨false, "and.", [.gpr ra, .gpr rs, .gpr rb]⟩) ∧
    Delivers (.andc rs ra rb) (fun _ => ⟨false, "andc", [.gpr ra, .gpr rs, .gpr rb]⟩) ∧
    Delivers (.andcRc rs ra rb) (fun _ => ⟨false, "andc.", [.gpr ra, .gpr rs, .gpr rb]⟩) ∧
    Delivers (.nor rs ra rb) (fun _ => ⟨false, "nor", [.gpr ra, .gpr rs, .gpr rb]⟩) ∧
    Delivers (.norRc rs ra rb) (fun _ => ⟨false, "nor.", [.gpr ra, .gpr rs, .gpr rb]⟩) ∧
    Delivers (.eqv rs ra rb) (fun _ => ⟨false, "eqv", [.gpr ra, .gpr rs, .gpr rb]⟩) ∧
    Delivers (.eqvRc rs ra rb) (fun _ => ⟨false, "eqv.", [.gpr ra, .gpr rs, .gpr rb]⟩) ∧
    Delivers (.xor rs ra rb) (fun _ => ⟨false, "xor", [.gpr ra, .gpr rs, .gpr rb]⟩) ∧
    Delivers (.xorRc rs ra rb) (fun _ => ⟨false, "xor.", [.gpr ra, .gpr rs, .gpr rb]⟩) ∧
    Delivers (.orc rs ra rb) (fun _ => ⟨false, "orc", [.gpr ra, .gpr rs, .gpr rb]⟩) ∧
    Delivers (.orcRc rs ra rb) (fun _ => ⟨false, "orc.", [.gpr ra, .gpr rs, .gpr rb]⟩) ∧
    Delivers (.or rs ra rb) (fun _ => ⟨false, "or", [.gpr ra, .gpr rs, .gpr rb]⟩) ∧
    Delivers (.orRc rs ra rb) (fun _ => ⟨false, "or.", [.gpr ra, .gpr rs, .gpr rb]⟩) ∧
    Delivers (.nand rs ra rb) (fun _ => ⟨false, "nand", [.gpr ra, .gpr rs, .gpr rb]⟩) ∧
    Delivers (.nandRc rs ra rb) (fun _ => ⟨false, "nand.", [.gpr ra, .gpr rs, .gpr rb]⟩)

/-- mr and mr. deliver the operands ra, rs, the record of mr being the one that mr from or-immediate delivers for the
same ra and rs; rb, equal to rs in the words they are read from, is not printed. For rb other than rs, and for the
or-immediate mr with rs and ra both zero, which no word reads as and of which the spec gives no record, the record is
the model's choice (DESIGN CHOICE, log 28). On every state whose ADDR is written each completes: OUT holds the record,
ADDR has advanced by 4 (modulo 2^32: the spec's decision D2, log 11), the text of the record has been returned, and
nothing else of the state has changed. (47_ext_logic.md section 3; 41_formatter.md section 5; 42_dispatch.md section 1
(decision D2).) -/
def Obligations.MoveIdiomsOfOrDeliverTheirRecords : Prop :=
  ∀ rs ra rb : RegNum,
    Delivers (.mrOr rs ra rb) (fun _ => ⟨false, "mr", [.gpr ra, .gpr rs]⟩) ∧
    Delivers (.mrOrRc rs ra rb) (fun _ => ⟨false, "mr.", [.gpr ra, .gpr rs]⟩) ∧
    ∀ s : State, exec (.mrOr rs ra rb) s = exec (.mrOri rs ra) s

/-- Each of lwzx, lwzux, lbzx, lbzux, stwx, stwux, stbx, stbux, lhzx, lhzux, lhax, lhaux, sthx and sthux delivers its
mnemonic with three integer registers rs, ra, rb, ra = 0 and ra = rs included; no memory is accessed. The spellings
are PRESUMED by the spec (D5, log 3). On every state whose ADDR is written each completes: OUT holds the record, ADDR
has advanced by 4 (modulo 2^32: the spec's decision D2, log 11), the text of the record has been returned, and nothing
else of the state has changed. (48_ext_ldst.md sections 1 and 2; 20_memory.md section 1; 42_dispatch.md section 1
(decision D2).) -/
def Obligations.IntegerLoadsAndStoresDeliverTheirRecords : Prop :=
  ∀ rs ra rb : RegNum,
    Delivers (.lwzx rs ra rb) (fun _ => ⟨false, "lwzx", [.gpr rs, .gpr ra, .gpr rb]⟩) ∧
    Delivers (.lwzux rs ra rb) (fun _ => ⟨false, "lwzux", [.gpr rs, .gpr ra, .gpr rb]⟩) ∧
    Delivers (.lbzx rs ra rb) (fun _ => ⟨false, "lbzx", [.gpr rs, .gpr ra, .gpr rb]⟩) ∧
    Delivers (.lbzux rs ra rb) (fun _ => ⟨false, "lbzux", [.gpr rs, .gpr ra, .gpr rb]⟩) ∧
    Delivers (.stwx rs ra rb) (fun _ => ⟨false, "stwx", [.gpr rs, .gpr ra, .gpr rb]⟩) ∧
    Delivers (.stwux rs ra rb) (fun _ => ⟨false, "stwux", [.gpr rs, .gpr ra, .gpr rb]⟩) ∧
    Delivers (.stbx rs ra rb) (fun _ => ⟨false, "stbx", [.gpr rs, .gpr ra, .gpr rb]⟩) ∧
    Delivers (.stbux rs ra rb) (fun _ => ⟨false, "stbux", [.gpr rs, .gpr ra, .gpr rb]⟩) ∧
    Delivers (.lhzx rs ra rb) (fun _ => ⟨false, "lhzx", [.gpr rs, .gpr ra, .gpr rb]⟩) ∧
    Delivers (.lhzux rs ra rb) (fun _ => ⟨false, "lhzux", [.gpr rs, .gpr ra, .gpr rb]⟩) ∧
    Delivers (.lhax rs ra rb) (fun _ => ⟨false, "lhax", [.gpr rs, .gpr ra, .gpr rb]⟩) ∧
    Delivers (.lhaux rs ra rb) (fun _ => ⟨false, "lhaux", [.gpr rs, .gpr ra, .gpr rb]⟩) ∧
    Delivers (.sthx rs ra rb) (fun _ => ⟨false, "sthx", [.gpr rs, .gpr ra, .gpr rb]⟩) ∧
    Delivers (.sthux rs ra rb) (fun _ => ⟨false, "sthux", [.gpr rs, .gpr ra, .gpr rb]⟩)

/-- Each of lfsx, lfsux, lfdx, lfdux, stfsx, stfsux, stfdx and stfdux delivers its mnemonic with the floating-point
register rs and the integer registers ra, rb; no memory is accessed. The spellings are PRESUMED by the spec (D5, log
3). On every state whose ADDR is written each completes: OUT holds the record, ADDR has advanced by 4 (modulo 2^32:
the spec's decision D2, log 11), the text of the record has been returned, and nothing else of the state has changed.
(48_ext_ldst.md sections 1 and 2; 10_state.md section 3; 42_dispatch.md section 1 (decision D2).) -/
def Obligations.FloatingLoadsAndStoresDeliverTheirRecords : Prop :=
  ∀ rs ra rb : RegNum,
    Delivers (.lfsx rs ra rb) (fun _ => ⟨false, "lfsx", [.fpr rs, .gpr ra, .gpr rb]⟩) ∧
    Delivers (.lfsux rs ra rb) (fun _ => ⟨false, "lfsux", [.fpr rs, .gpr ra, .gpr rb]⟩) ∧
    Delivers (.lfdx rs ra rb) (fun _ => ⟨false, "lfdx", [.fpr rs, .gpr ra, .gpr rb]⟩) ∧
    Delivers (.lfdux rs ra rb) (fun _ => ⟨false, "lfdux", [.fpr rs, .gpr ra, .gpr rb]⟩) ∧
    Delivers (.stfsx rs ra rb) (fun _ => ⟨false, "stfsx", [.fpr rs, .gpr ra, .gpr rb]⟩) ∧
    Delivers (.stfsux rs ra rb) (fun _ => ⟨false, "stfsux", [.fpr rs, .gpr ra, .gpr rb]⟩) ∧
    Delivers (.stfdx rs ra rb) (fun _ => ⟨false, "stfdx", [.fpr rs, .gpr ra, .gpr rb]⟩) ∧
    Delivers (.stfdux rs ra rb) (fun _ => ⟨false, "stfdux", [.fpr rs, .gpr ra, .gpr rb]⟩)

/-- tw delivers (tw; the condition rs, ra, rb) for each of the 32 conditions (order and rendering are the spec's
decision D8, log 13); it evaluates nothing and takes no trap. On every state whose ADDR is written each completes: OUT
holds the record, ADDR has advanced by 4 (modulo 2^32: the spec's decision D2, log 11), the text of the record has
been returned, and nothing else of the state has changed. (49_ext_trap.md section 1 (decision D8); 60_exceptions.md
section 1; 42_dispatch.md section 1 (decision D2).) -/
def Obligations.TrapWordDeliversItsConditionAndTakesNoTrap : Prop :=
  ∀ rs ra rb : RegNum,
    Delivers (.tw rs ra rb) (fun _ => ⟨false, "tw", [.trapOn rs, .gpr ra, .gpr rb]⟩)

/-- dc.l delivers the illegal record of its word: the illegal bit set, the mnemonic dc.l and the whole word as its one
operand; the cursor advances by 4 on an illegal word too. For dc.l of a word that is not illegal, which no word reads
as, the record is the model's choice (DESIGN CHOICE, log 28). On every state whose ADDR is written each completes: OUT
holds the record, ADDR has advanced by 4 (modulo 2^32: the spec's decision D2, log 11), the text of the record has
been returned, and nothing else of the state has changed. (42_dispatch.md section 1 (decision D2); 42_dispatch.md
section 3; 60_exceptions.md section 1.) -/
def Obligations.IllegalWordDeliversTheRawWord : Prop :=
  ∀ code : Word,
    Delivers (.dcl code) (fun _ => ⟨true, "dc.l", [.raw32 code]⟩)

/-- For all parameters that keep the four handled opcodes distinct, the dispatch ROM has 64 entries; OPC_ADDI, 24,
OPC_B and 31 select their four handlers, and every other opcode selects H_ILLEGAL. (Rule R71.) -/
def Obligations.DispatchRomNamesAHandlerForEveryOpcode : Prop :=
  ∀ cfg : Config, configOk cfg = true →
    (dispatchRom cfg).length = 64 ∧
    dispatch cfg cfg.opcAddi = .addi ∧ dispatch cfg 24 = .ori ∧ dispatch cfg cfg.opcB = .branch ∧
    dispatch cfg 31 = .ext ∧
    ∀ opc : BitVec 6, opc ≠ cfg.opcAddi → opc ≠ 24 → opc ≠ cfg.opcB → opc ≠ 31 → dispatch cfg opc = .illegal

/-- For all legal parameters, every word, every address and both values of simplified, the record has a non-empty
mnemonic and its text is not empty; a step of the block on a Decode with ADDR written answers a next state whose OUT
is that record and whose last returned text is its text, and never a fault. The only refusal is a Decode before ADDR
has been written. (Rule R72.) -/
def Obligations.DecodeIsTotalWithNonEmptyText : Prop :=
  ∀ cfg : Config, configOk cfg = true →
    (∀ (code addr : Word) (simplified : Bool),
      (decodeRecord cfg code addr simplified).mnem ≠ "" ∧ decodeText cfg code addr simplified ≠ "") ∧
    (∀ (s : State) (a code : Word) (simplified : Bool) (rest : List HostAction),
      s.addr = some a → s.pending = .decode code simplified :: rest →
        ∃ t, blockStep cfg s = .next t ∧ t.out = some (decodeRecord cfg code a simplified) ∧
          t.texts = s.texts ++ [decodeText cfg code a simplified]) ∧
    (∀ (s : State) (r : Fault), blockStep cfg s ≠ .fault r) ∧
    ∀ (s : State) (r : Refusal), blockStep cfg s = .refused r →
      r = .addrUnwritten ∧ s.addr = none ∧ ∃ code simplified rest, s.pending = .decode code simplified :: rest

/-- For all legal parameters, every word, address and setting: the illegal bit is set if and only if one of the nine
conditions holds (no handler; subtract: empty entry, or a nonzero rb at a two-operand index; logical: not the mr case
and an empty entry; load/store: index above 23, rc = 1, or an empty entry; tier B: extOpc = 4 with rc = 1, or extOpc
other than 4), and then the record is ILLEGAL(code) and its text dc.l followed by the word. In particular no word of
OPC_ADDI, 24 or OPC_B is illegal. A step on such a word answers a next state: it does not fault, trap or stop. (Rule
R40.) -/
def Obligations.IllegalOutcomesAreExactlyTheNineConditions : Prop :=
  ∀ cfg : Config, configOk cfg = true → ∀ (code addr : Word) (simplified : Bool),
    ((decodeRecord cfg code addr simplified).illegal = true ↔
      (opcOf code ≠ cfg.opcAddi ∧ opcOf code ≠ 24 ∧ opcOf code ≠ cfg.opcB ∧ opcOf code ≠ 31) ∨
      (opcOf code = 31 ∧
        ((selOf code = 0x08 ∧ rom cfg.subRom (idx4Of code).toNat = none) ∨
         (selOf code = 0x08 ∧ (idx4Of code).toNat ∈ [3, 6, 7, 11, 15] ∧ rbOf code ≠ 0) ∨
         (selOf code = 0x1C ∧ ¬(idx5Of code = 13 ∧ rsOf code = rbOf code ∧ simplified = true) ∧
            rom cfg.logicRom (idx5Of code).toNat = none) ∨
         (selOf code = 0x17 ∧ 23 < (idx5Of code).toNat) ∨
         (selOf code = 0x17 ∧ rcOf code = true) ∨
         (selOf code = 0x17 ∧ rom cfg.ldstRom (idx5Of code).toNat = none) ∨
         (selOf code ≠ 0x08 ∧ selOf code ≠ 0x1C ∧ selOf code ≠ 0x17 ∧ extOpcOf code = 4 ∧ rcOf code = true) ∨
         (selOf code ≠ 0x08 ∧ selOf code ≠ 0x1C ∧ selOf code ≠ 0x17 ∧ extOpcOf code ≠ 4)))) ∧
    ((decodeRecord cfg code addr simplified).illegal = true →
      decodeRecord cfg code addr simplified = ⟨true, "dc.l", [.raw32 code]⟩ ∧
      decodeText cfg code addr simplified = "dc.l    0x" ++ hex8 code ∧
      ∀ (s : State) (rest : List HostAction), s.addr = some addr → s.pending = .decode code simplified :: rest →
        ∃ t, blockStep cfg s = .next t ∧ t.out = some ⟨true, "dc.l", [.raw32 code]⟩)

/-- For all legal parameters (the logical ROM holds or at index 13), every word and all addresses, the word is illegal
under simplified = 1 exactly when it is illegal under simplified = 0. The model's list of causes agrees: a word has a
cause exactly when its record is illegal. (30_encoding.md section 7; 30_encoding.md section 6.) -/
def Obligations.IllegalityIsTheSameUnderBothSettings : Prop :=
  ∀ cfg : Config, configOk cfg = true → ∀ (code addr addr' : Word),
    (decodeRecord cfg code addr true).illegal = (decodeRecord cfg code addr' false).illegal ∧
    ∀ simplified : Bool, (illegalCause cfg code simplified).isSome = (decodeRecord cfg code addr simplified).illegal

/-- For all legal parameters, every word, address and setting, the record has a non-empty mnemonic and at most three
operands, and its illegal bit is set exactly when it is the record ILLEGAL of some word, which is then the word
decoded (that the result is a record with this bit is the spec's decision D23, log 21). (41_formatter.md section 1
(decision D23).) -/
def Obligations.EveryRecordIsWellFormed : Prop :=
  ∀ cfg : Config, configOk cfg = true → ∀ (code addr : Word) (simplified : Bool),
    (decodeRecord cfg code addr simplified).mnem ≠ "" ∧
    (decodeRecord cfg code addr simplified).ops.length ≤ 3 ∧
    ((decodeRecord cfg code addr simplified).illegal = true ↔
      ∃ w, decodeRecord cfg code addr simplified = ⟨true, "dc.l", [.raw32 w]⟩) ∧
    ∀ w, decodeRecord cfg code addr simplified = ⟨true, "dc.l", [.raw32 w]⟩ → w = code

/-- For all legal parameters and every address, the word 0x60000000 under simplified = 1 gives the record nop with no
operand and the text of three characters, and a record has an empty operand list only for that word under that
setting; so the word is never printed mr. (Rule R83.) -/
def Obligations.NopIsTheOneWordWithNoOperands : Prop :=
  ∀ cfg : Config, configOk cfg = true →
    (∀ addr : Word, decodeRecord cfg 0x60000000 addr true = ⟨false, "nop", []⟩ ∧
      decodeText cfg 0x60000000 addr true = "nop") ∧
    ∀ (code addr : Word) (simplified : Bool),
      ((decodeRecord cfg code addr simplified).ops = [] ↔ code = 0x60000000 ∧ simplified = true) ∧
      (opcOf code = 24 ∧ rsOf code = 0 ∧ raOf code = 0 ∧ immOf code = 0 ↔ code = 0x60000000)

/-- For all legal parameters: a word with opc = 24, imm = 0 and not both rs and ra zero gives, under simplified = 1,
the record mr with ra first, the case rs = ra and one zero field included; the word encoded with those fields
satisfies code & 0xFC00FFFF = 0x60000000; there is no mr. of this opcode; and a word of the logical family at index 13
with rs = rb, rc = 0 and the same ra and rs gives the same record. The examples 0x60600000 and 0x60A50000 give their
texts. (Rule R84.) -/
def Obligations.MoveFromOrImmediatePrintsRaFirst : Prop :=
  ∀ cfg : Config, configOk cfg = true →
    (∀ code addr : Word, opcOf code = 24 → immOf code = 0 → ¬(rsOf code = 0 ∧ raOf code = 0) →
      decodeRecord cfg code addr true = ⟨false, "mr", [.gpr (raOf code), .gpr (rsOf code)]⟩ ∧
      ∀ code' addr' : Word, opcOf code' = 31 → extOpcOf code' = 444 → rcOf code' = false →
        rsOf code' = rbOf code' → raOf code' = raOf code → rsOf code' = rsOf code →
          decodeRecord cfg code' addr' true = decodeRecord cfg code addr true) ∧
    (∀ code : Word, opcOf code = 24 ∧ immOf code = 0 ↔ code &&& 0xFC00FFFF#32 = 0x60000000#32) ∧
    (∀ (code addr : Word) (simplified : Bool), opcOf code = 24 →
      (decodeRecord cfg code addr simplified).mnem ≠ "mr." ∧
      ((decodeRecord cfg code addr simplified).mnem = "mr" ↔
        immOf code = 0 ∧ ¬(rsOf code = 0 ∧ raOf code = 0) ∧ simplified = true)) ∧
    ∀ addr : Word, decodeText cfg 0x60600000 addr true = "mr      r0, r3" ∧
      decodeText cfg 0x60A50000 addr true = "mr      r5, r5"

/-- For all legal parameters and every word of opcode 24: it is nop exactly for all fields zero under simplified; mr
exactly for imm = 0, not both registers zero, under simplified; ori with the operands rs, ra, imm (rs first, as the
document says: 90 C1, log 17) in every other case. Over the 1024 pairs (rs, ra) with imm = 0 under simplified, one
word is nop and 1023 are mr. (43_immediate.md section 2; 90_conflicts.md C1.) -/
def Obligations.OrImmediateArmsPartitionItsWords : Prop :=
  ∀ cfg : Config, configOk cfg = true →
    (∀ (code addr : Word) (simplified : Bool), opcOf code = 24 →
      ((decodeRecord cfg code addr simplified).mnem = "nop" ↔
        rsOf code = 0 ∧ raOf code = 0 ∧ immOf code = 0 ∧ simplified = true) ∧
      ((decodeRecord cfg code addr simplified).mnem = "mr" ↔
        immOf code = 0 ∧ ¬(rsOf code = 0 ∧ raOf code = 0) ∧ simplified = true) ∧
      (immOf code ≠ 0 ∨ simplified = false ↔
        decodeRecord cfg code addr simplified =
          ⟨false, "ori", [.gpr (rsOf code), .gpr (raOf code), .imm16 (immOf code)]⟩)) ∧
    ((List.range 1024).countP fun n =>
      (decodeRecord cfg (0x60000000#32 ||| BitVec.ofNat 32 (n * 2 ^ 16)) 0 true).mnem == "nop") = 1 ∧
    ((List.range 1024).countP fun n =>
      (decodeRecord cfg (0x60000000#32 ||| BitVec.ofNat 32 (n * 2 ^ 16)) 0 true).mnem == "mr") = 1023

/-- For all legal parameters and every word of opcode OPC_ADDI: with ra = 0 under simplified the record is li with rd
and the raw immediate; otherwise it is addi with rd, ra and the raw immediate. At the default opcode 14 (PRESUMED by
the spec, D3, log 1) the document's example gives its text. (43_immediate.md section 1; 92_eei_decisions.md D3.) -/
def Obligations.AddImmediateReadsAsLiOrAddi : Prop :=
  (∀ cfg : Config, configOk cfg = true → ∀ (code addr : Word) (simplified : Bool), opcOf code = cfg.opcAddi →
    (raOf code = 0 ∧ simplified = true →
      decodeRecord cfg code addr simplified = ⟨false, "li", [.gpr (rsOf code), .imm16 (immOf code)]⟩) ∧
    (raOf code ≠ 0 ∨ simplified = false →
      decodeRecord cfg code addr simplified =
        ⟨false, "addi", [.gpr (rsOf code), .gpr (raOf code), .imm16 (immOf code)]⟩)) ∧
  ∀ addr : Word, decodeText defaultConfig 0x38600010 addr true = "li      r3, 0x0010" ∧
    decodeText defaultConfig 0x38600010 addr false = "addi    r3, r0, 0x0010"

/-- For all legal parameters and every word of opcode OPC_B, under both settings: the mnemonic is b, bl, ba or bla by
AA and LK, and the one operand is the sign extension of bits 25:2 with two zero bits below, alone where AA = 1 and
added to the address modulo 2^32 where AA = 0 (wrapping is the spec's decision D2, log 11). With AA = 0 the low two
bits of the target are those of the address; with AA = 1 they are zero. (44_branch.md section 1 (decision D2);
30_encoding.md section 4; 20_memory.md section 3.) -/
def Obligations.BranchTargetIsCursorPlusSignExtendedField : Prop :=
  ∀ cfg : Config, configOk cfg = true → ∀ (code addr : Word) (simplified : Bool), opcOf code = cfg.opcB →
    ∃ target : Word,
      decodeRecord cfg code addr simplified =
        ⟨false, "b" ++ (if lkOf code then "l" else "") ++ (if aaOf code then "a" else ""), [.addr32 target]⟩ ∧
      (aaOf code = true → target = (code.extractLsb' 2 24 ++ 0#2).signExtend 32 ∧ target.toNat % 4 = 0) ∧
      (aaOf code = false → target = addr + (code.extractLsb' 2 24 ++ 0#2).signExtend 32 ∧
        target.toNat % 4 = addr.toNat % 4)

/-- For all legal parameters and every word of opcode 31: at a subtract index with entry m, the mnemonic is m with o
for OE and . for rc, and the operands are rs, ra, rb, or rs, ra at a two-operand index with rb = 0; at a load/store
index up to 23 with entry m and rc = 0, the mnemonic is m and the operands are rs (a floating-point register from
index 16), ra, rb. (Which two operands a two-operand form prints is the spec's decision D7, log 16.) (46_ext_arith.md
section 1 (decision D7); 48_ext_ldst.md section 1.) -/
def Obligations.SubtractAndLoadStoreRecordsFollowTheirRoms : Prop :=
  ∀ cfg : Config, configOk cfg = true → ∀ (code addr : Word) (simplified : Bool) (m : String), opcOf code = 31 →
    (selOf code = 0x08 → rom cfg.subRom (idx4Of code).toNat = some m →
      (idx4Of code).toNat ∉ [3, 6, 7, 11, 15] →
      decodeRecord cfg code addr simplified =
        ⟨false, m ++ ((if oeOf code then "o" else "") ++ (if rcOf code then "." else "")),
          [.gpr (rsOf code), .gpr (raOf code), .gpr (rbOf code)]⟩) ∧
    (selOf code = 0x08 → rom cfg.subRom (idx4Of code).toNat = some m →
      (idx4Of code).toNat ∈ [3, 6, 7, 11, 15] → rbOf code = 0 →
      decodeRecord cfg code addr simplified =
        ⟨false, m ++ ((if oeOf code then "o" else "") ++ (if rcOf code then "." else "")),
          [.gpr (rsOf code), .gpr (raOf code)]⟩) ∧
    (selOf code = 0x17 → rcOf code = false → rom cfg.ldstRom (idx5Of code).toNat = some m →
      (idx5Of code).toNat ≤ 15 →
      decodeRecord cfg code addr simplified =
        ⟨false, m, [.gpr (rsOf code), .gpr (raOf code), .gpr (rbOf code)]⟩) ∧
    (selOf code = 0x17 → rcOf code = false → rom cfg.ldstRom (idx5Of code).toNat = some m →
      16 ≤ (idx5Of code).toNat → (idx5Of code).toNat ≤ 23 →
      decodeRecord cfg code addr simplified =
        ⟨false, m, [.fpr (rsOf code), .gpr (raOf code), .gpr (rbOf code)]⟩)

/-- For all legal parameters, every word with opc = 31 and sel = 0x1C, every address and setting: the index is the
five upper bits of the extended opcode; at index 13 with rs = rb under simplified the record is mr, or mr. with rc,
with ra, rs; otherwise an index with no entry gives ILLEGAL(code), and an index with entry m gives m, with . for rc,
and the operands ra, rs, rb, for every value of rc, rs, ra and rb. An index beyond the end of the ROM has no entry,
and at the default ROM no index from 16 on has one. (Rule R130.) -/
def Obligations.LogicalFamilyFollowsItsRom : Prop :=
  ∀ cfg : Config, configOk cfg = true → ∀ (code addr : Word) (simplified : Bool), opcOf code = 31 →
    selOf code = 0x1C →
      idx5Of code = (extOpcOf code >>> 5).setWidth 5 ∧
      (idx5Of code = 13 ∧ rsOf code = rbOf code ∧ simplified = true →
        decodeRecord cfg code addr simplified =
          ⟨false, if rcOf code then "mr." else "mr", [.gpr (raOf code), .gpr (rsOf code)]⟩) ∧
      (¬(idx5Of code = 13 ∧ rsOf code = rbOf code ∧ simplified = true) →
        (rom cfg.logicRom (idx5Of code).toNat = none →
          decodeRecord cfg code addr simplified = ⟨true, "dc.l", [.raw32 code]⟩) ∧
        ∀ m, rom cfg.logicRom (idx5Of code).toNat = some m →
          decodeRecord cfg code addr simplified =
            ⟨false, m ++ (if rcOf code then "." else ""),
              [.gpr (raOf code), .gpr (rsOf code), .gpr (rbOf code)]⟩) ∧
      (cfg.logicRom.length ≤ (idx5Of code).toNat → rom cfg.logicRom (idx5Of code).toNat = none) ∧
      (16 ≤ (idx5Of code).toNat → rom defaultConfig.logicRom (idx5Of code).toNat = none)

/-- For all legal parameters: a word has opc = 31 and extOpc = 444 exactly if code & 0xFC0007FE = 0x7C000378. Such a
word with rs = rb is, under simplified = 1 and whatever the logical ROM holds, mr or mr. (by rc) with ra, rs; with rs
other than rb, or under simplified = 0, it is or or or. with ra, rs, rb. The text of mr is that of the or-immediate mr
of the same ra and rs, and or-immediate has no mr.; the rules' examples give their texts. (Rule R137, R139.) -/
def Obligations.OrReadsAsMoveOnlyWithEqualSources : Prop :=
  ∀ cfg : Config, configOk cfg = true →
    (∀ code : Word, opcOf code = 31 ∧ extOpcOf code = 444 ↔ code &&& 0xFC0007FE#32 = 0x7C000378#32) ∧
    (∀ code addr : Word, opcOf code = 31 → extOpcOf code = 444 →
      (rsOf code = rbOf code → ∀ T : Rom,
        decodeRecord { cfg with logicRom := T } code addr true =
          ⟨false, if rcOf code then "mr." else "mr", [.gpr (raOf code), .gpr (rsOf code)]⟩) ∧
      ∀ simplified : Bool, rsOf code ≠ rbOf code ∨ simplified = false →
        decodeRecord cfg code addr simplified =
          ⟨false, "or" ++ (if rcOf code then "." else ""), [.gpr (raOf code), .gpr (rsOf code), .gpr (rbOf code)]⟩) ∧
    (∀ code code' addr addr' : Word, opcOf code = 31 → extOpcOf code = 444 → rcOf code = false →
      rsOf code = rbOf code → opcOf code' = 24 → immOf code' = 0 → ¬(rsOf code' = 0 ∧ raOf code' = 0) →
      raOf code' = raOf code → rsOf code' = rsOf code →
        decodeText cfg code addr true = decodeText cfg code' addr' true) ∧
    (∀ (code addr : Word) (simplified : Bool), opcOf code = 24 →
      (decodeRecord cfg code addr simplified).mnem ≠ "mr.") ∧
    ∀ addr : Word,
      decodeText cfg 0x7C000378 addr true = "mr      r0, r0" ∧ decodeText cfg 0x7CE73B78 addr true = "mr      r7, r7" ∧
      decodeText cfg 0x7CE93B78 addr true = "mr      r9, r7" ∧ decodeText cfg 0x7CE93B79 addr true = "mr.     r9, r7" ∧
      decodeText cfg 0x7CE93B78 addr false = "or      r9, r7, r7" ∧
      ∀ simplified : Bool, decodeText cfg 0x7C642B78 addr simplified = "or      r4, r3, r5" ∧
        decodeText cfg 0x7C642B79 addr simplified = "or.     r4, r3, r5"

/-- For every ROM and index: an index beyond the end and an empty entry give none, and any other entry gives its
mnemonic. For all legal parameters every family turns none into ILLEGAL(code); every entry is a non-empty string of
lower-case letters, so it holds no suffix point; and at the default ROM no entry of the subtract family ends in the
suffix letter o. R18 says that of every ROM; the last clause says it of the default SUB_ROM only, whose contents are
PRESUMED by the spec (D5, log 3). (10_state.md section 4.) -/
def Obligations.RomLookupIsBoundsChecked : Prop :=
  (∀ (T : Rom) (i : Nat), (T.length ≤ i → rom T i = none) ∧ (T[i]? = some none → rom T i = none) ∧
    ∀ m, T[i]? = some (some m) → rom T i = some m) ∧
  (∀ cfg : Config, configOk cfg = true →
    (∀ (code addr : Word) (simplified : Bool), opcOf code = 31 →
      (selOf code = 0x08 ∧ rom cfg.subRom (idx4Of code).toNat = none) ∨
      (selOf code = 0x1C ∧ ¬(idx5Of code = 13 ∧ rsOf code = rbOf code ∧ simplified = true) ∧
        rom cfg.logicRom (idx5Of code).toNat = none) ∨
      (selOf code = 0x17 ∧ rom cfg.ldstRom (idx5Of code).toNat = none) →
        decodeRecord cfg code addr simplified = ⟨true, "dc.l", [.raw32 code]⟩) ∧
    ∀ (m : String), (some m ∈ cfg.subRom ∨ some m ∈ cfg.logicRom ∨ some m ∈ cfg.ldstRom) →
      m ≠ "" ∧ ∀ c ∈ m.toList, 'a' ≤ c ∧ c ≤ 'z' ∧ c ≠ '.') ∧
  ∀ m : String, some m ∈ defaultConfig.subRom → m.toList.getLast? ≠ some 'o'

/-- For all legal parameters, every word with opc = 31, sel none of 0x08, 0x1C, 0x17 and extOpc other than 4 is
ILLEGAL(code) for every rs, ra, rb, rc and both settings; those are 927 of the 1024 values of extOpc. The four
examples give their texts. (Rule R181.) -/
def Obligations.TierBAcceptsOnlyTheTrapWord : Prop :=
  ∀ cfg : Config, configOk cfg = true →
    (∀ (code addr : Word) (simplified : Bool), opcOf code = 31 → selOf code ≠ 0x08 → selOf code ≠ 0x1C →
      selOf code ≠ 0x17 → extOpcOf code ≠ 4 →
        decodeRecord cfg code addr simplified = ⟨true, "dc.l", [.raw32 code]⟩) ∧
    ((List.range 1024).countP fun e =>
      e % 32 != 0x08 && e % 32 != 0x1C && e % 32 != 0x17 && e != 4) = 927 ∧
    ∀ (addr : Word) (simplified : Bool),
      decodeText cfg 0x7C000000 addr simplified = "dc.l    0x7C000000" ∧
      decodeText cfg 0x7C642A14 addr simplified = "dc.l    0x7C642A14" ∧
      decodeText cfg 0x7C000048 addr simplified = "dc.l    0x7C000048" ∧
      decodeText cfg 0x7C0004AC addr simplified = "dc.l    0x7C0004AC"

/-- At the default ROMs (PRESUMED by the spec, D5, log 3): 49 of the 1024 extended opcodes are accepted with rc = 0
and rb = 0; 75 of the 2048 values of the low eleven bits are accepted with rb = 0, and 55 with rb = 1. (30_encoding.md
section 5; 95_test_vectors.md section 2.12.) -/
def Obligations.AcceptedExtendedOpcodesAreCounted : Prop :=
  ((List.range 1024).countP fun e =>
    !(decodeRecord defaultConfig (0x7C000000#32 ||| BitVec.ofNat 32 (2 * e)) 0 true).illegal) = 49 ∧
  ((List.range 2048).countP fun n =>
    !(decodeRecord defaultConfig (0x7C000000#32 ||| BitVec.ofNat 32 n) 0 true).illegal) = 75 ∧
  ((List.range 2048).countP fun n =>
    !(decodeRecord defaultConfig (0x7C000800#32 ||| BitVec.ofNat 32 n) 0 true).illegal) = 55

/-- For all legal parameters and every word: the record differs between two different addresses exactly if the word is
a relative branch (OPC_B with AA = 0); it differs between the two settings exactly if the word is add-immediate with
ra = 0, or-immediate with imm = 0, or extOpc 444 with rs = rb; and it does not change with the three ROMs unless the
primary opcode is 31. That a relative branch differs for every two different addresses needs the target's sum modulo
2^32 (R91; the spec's decision D2, log 11). (42_dispatch.md section 4; 10_state.md section 3; 44_branch.md section 1
(decision D2).) -/
def Obligations.RecordDependsOnAddressAndSettingOnlyWhereSaid : Prop :=
  ∀ cfg : Config, configOk cfg = true → ∀ (code addr addr' : Word) (simplified : Bool),
    (addr ≠ addr' →
      (decodeRecord cfg code addr simplified ≠ decodeRecord cfg code addr' simplified ↔
        opcOf code = cfg.opcB ∧ aaOf code = false)) ∧
    (decodeRecord cfg code addr true ≠ decodeRecord cfg code addr false ↔
      (opcOf code = cfg.opcAddi ∧ raOf code = 0) ∨ (opcOf code = 24 ∧ immOf code = 0) ∨
        (opcOf code = 31 ∧ extOpcOf code = 444 ∧ rsOf code = rbOf code)) ∧
    ∀ subRom logicRom ldstRom : Rom, opcOf code ≠ 31 →
      decodeRecord { cfg with subRom := subRom, logicRom := logicRom, ldstRom := ldstRom } code addr simplified =
        decodeRecord cfg code addr simplified

/-- For every word: masking with 0x03FFFFFC leaves LI24 with two zero bits below; the displacement is that value with
bits 31:26 set if bit 25 of the word is set and unchanged if it is clear, which is its sign extension from 26 bits;
read as a signed number it is four times the signed value of LI24, between -0x02000000 and 0x01FFFFFC; and two words
with the same LI24 have the same displacement, whatever AA and LK are. (Rule R34.) -/
def Obligations.BranchDisplacementIsTheFieldInPlace : Prop :=
  ∀ code : Word,
    code &&& 0x03FFFFFC#32 = (li24Of code ++ 0#2).setWidth 32 ∧
    branchDisplacement code =
      (if code.getLsbD 25 then (code &&& 0x03FFFFFC#32) ||| 0xFC000000#32 else code &&& 0x03FFFFFC#32) ∧
    branchDisplacement code = ((code &&& 0x03FFFFFC#32).setWidth 26).signExtend 32 ∧
    (branchDisplacement code).toInt = 4 * (li24Of code).toInt ∧
    -0x02000000 ≤ (branchDisplacement code).toInt ∧ (branchDisplacement code).toInt ≤ 0x01FFFFFC ∧
    ∀ code' : Word, li24Of code' = li24Of code → branchDisplacement code' = branchDisplacement code

/-- signExtend leaves a value whose bit p is clear as it is, the bits above p included; where the bits above p are
zero it is the sign extension of the low p + 1 bits to 32; and the one caller's value, a word masked with 0x03FFFFFC,
has bits 31:26 zero, so that call is the sign extension of 26 bits. (Rule R51.) -/
def Obligations.SignExtensionUnderItsPrecondition : Prop :=
  (∀ (v : Word) (p : Fin 32), v.getLsbD p = false → signExtend v p = v) ∧
  (∀ (v : Word) (p : Fin 32), (∀ i, p.val < i → v.getLsbD i = false) →
    signExtend v p = (v.setWidth (p.val + 1)).signExtend 32) ∧
  (∀ (code : Word) (i : Nat), 25 < i → (code &&& 0x03FFFFFC#32).getLsbD i = false) ∧
  ∀ code : Word, signExtend (code &&& 0x03FFFFFC#32) 25 = ((code &&& 0x03FFFFFC#32).setWidth 26).signExtend 32

/-- For every value and every position p up to 31, bit i of signExtend(value, p) is bit i of the value where i is at
most p, and above p the disjunction of that bit and bit p; for p = 31 the value is returned unchanged (the width 32 is
the spec's decision D21, log 20). (40_signextend.md section 1 (decision D21).) -/
def Obligations.SignExtensionBitByBit : Prop :=
  (∀ (v : Word) (p : Fin 32) (i : Nat), i < 32 →
    (signExtend v p).getLsbD i = (v.getLsbD i || (decide (p.val < i) && v.getLsbD p))) ∧
  ∀ v : Word, signExtend v 31 = v

/-- A record with no operand renders as its bare mnemonic; with one, two or three operands it renders as the mnemonic
padded to its column, then the operands with a comma and a space between them. Each operand kind has its text: r or fp
with the decimal number, 0x with four or eight hexadecimal digits, and the trap condition as a bare decimal number
(decisions D8, D9, D10 of the spec, logs 12 to 14). (41_formatter.md sections 2 and 3 (decisions D8, D9, D10, D16).)
-/
def Obligations.RenderingIsMnemonicColumnAndOperands : Prop :=
  (∀ (il : Bool) (m : String) (x y z : Operand),
    render ⟨il, m, []⟩ = m ∧
    render ⟨il, m, [x]⟩ = pad8 m ++ renderOp x ∧
    render ⟨il, m, [x, y]⟩ = pad8 m ++ (renderOp x ++ ", " ++ renderOp y) ∧
    render ⟨il, m, [x, y, z]⟩ = pad8 m ++ (renderOp x ++ ", " ++ (renderOp y ++ ", " ++ renderOp z))) ∧
  ∀ (n : RegNum) (v : BitVec 16) (w : Word),
    renderOp (.gpr n) = "r" ++ dec n ∧ renderOp (.fpr n) = "fp" ++ dec n ∧ renderOp (.imm16 v) = "0x" ++ hex4 v ∧
    renderOp (.addr32 w) = "0x" ++ hex8 w ∧ renderOp (.raw32 w) = "0x" ++ hex8 w ∧ renderOp (.trapOn n) = dec n

/-- For every text, pad8 gives the text followed by max(0, 8 - length) blanks and nothing else: its length is the
greater of the text's length and 8, and a text of eight or more characters is returned unchanged (the spec's decision
D11, log 15). (41_formatter.md section 2 (decision D11).) -/
def Obligations.PaddingFillsTheColumnAndNeverTruncates : Prop :=
  ∀ m : String,
    (pad8 m).toList = m.toList ++ List.replicate (8 - m.length) ' ' ∧
    (pad8 m).length = max m.length 8 ∧ (8 ≤ m.length → pad8 m = m)

/-- For every 16-bit value v, hex4(v) is four characters: the digits of v[15:12], v[11:8], v[7:4] and v[3:0] in that
order, each the character at the place of its value in 0123456789ABCDEF. The three examples hold. (Rule R55.) -/
def Obligations.ShortHexadecimalNumeralHasFourDigits : Prop :=
  (∀ v : BitVec 16, (hex4 v).length = 4 ∧
    (hex4 v).toList.map some =
      [v.extractLsb' 12 4, v.extractLsb' 8 4, v.extractLsb' 4 4, v.extractLsb' 0 4].map
        fun d => "0123456789ABCDEF".toList[d.toNat]?) ∧
  hex4 0x0010 = "0010" ∧ hex4 0xFFFF = "FFFF" ∧ hex4 0 = "0000"

/-- The renderings hex4, hex8 and dec are injective: from the text of an operand its value can be read back. So two
words with the same dc.l text are the same word (upper case and decimal are the spec's decisions D9 and D10, logs 12
and 14). (41_formatter.md section 2 (decisions D9, D10).) -/
def Obligations.NumeralsLoseNoInformation : Prop :=
  (∀ v w : BitVec 16, hex4 v = hex4 w → v = w) ∧ (∀ v w : Word, hex8 v = hex8 w → v = w) ∧
  (∀ m n : RegNum, dec m = dec n → m = n) ∧
  ∀ v w : Word, render (illegalRecord v) = render (illegalRecord w) → v = w

/-- For every word, the text of ILLEGAL(code) is dc.l, four blanks, 0x and the eight hexadecimal digits of the word,
18 characters in all; the example 0x7C6428D0 gives its text. (Rule R61.) -/
def Obligations.IllegalRenderingIsEighteenCharacters : Prop :=
  (∀ code : Word, render (illegalRecord code) = "dc.l    0x" ++ hex8 code ∧
    (render (illegalRecord code)).length = 18) ∧
  render (illegalRecord 0x7C6428D0) = "dc.l    0x7C6428D0"

/-- At the default parameters (PRESUMED by the spec, logs 1 to 3), for every word, address and setting, the text has
at least 3 and at most 24 characters and its first character is a lower-case letter; the bounds are reached, by nop
and by the word 0x3BFFFFFF. (41_formatter.md section 4.) -/
def Obligations.TextsAreThreeToTwentyFourCharacters : Prop :=
  (∀ (code addr : Word) (simplified : Bool),
    3 ≤ (decodeText defaultConfig code addr simplified).length ∧
    (decodeText defaultConfig code addr simplified).length ≤ 24 ∧
    ∃ c rest, (decodeText defaultConfig code addr simplified).toList = c :: rest ∧ 'a' ≤ c ∧ c ≤ 'z') ∧
  ∀ addr : Word, (decodeText defaultConfig 0x60000000 addr true).length = 3 ∧
    (decodeText defaultConfig 0x3BFFFFFF addr true).length = 24

/-- At the default parameters (PRESUMED by the spec, logs 1 to 3), for every word, address and setting the mnemonic
has at most 8 characters, and one of exactly 8 is subfzeo. or subfmeo. (41_formatter.md section 6.) -/
def Obligations.MnemonicsFitTheColumn : Prop :=
  ∀ (code addr : Word) (simplified : Bool),
    (decodeRecord defaultConfig code addr simplified).mnem.length ≤ 8 ∧
    ((decodeRecord defaultConfig code addr simplified).mnem.length = 8 →
      (decodeRecord defaultConfig code addr simplified).mnem = "subfzeo." ∨
        (decodeRecord defaultConfig code addr simplified).mnem = "subfmeo.")

/-- From every state with ADDR = a whose next n actions are Decode actions, n steps all answer a next state; at the
end ADDR is (a + 4n) mod 2^32, n texts have been returned after the earlier ones, the later actions are still pending,
and (ADDR - a) / 4 is n modulo 2^30 (wrapping is the spec's decision D2, log 11). (42_dispatch.md section 1 (decision
D2); 60_exceptions.md section 3 (timers and counters).) -/
def Obligations.CursorAdvancesByFourPerDecode : Prop :=
  ∀ (actions rest : List HostAction) (s : State) (a : Word), s.addr = some a → s.pending = actions ++ rest →
    (∀ x ∈ actions, x.isDecode = true) →
    ∃ t newTexts, Host.Core.run core actions.length s = .next t ∧
      t.addr = some (a + BitVec.ofNat 32 (4 * actions.length)) ∧ t.pending = rest ∧
      t.texts = s.texts ++ newTexts ∧ newTexts.length = actions.length ∧
      ((a + BitVec.ofNat 32 (4 * actions.length) - a).toNat / 4 = actions.length % 2 ^ 30)

/-- Two decodes with the same code, simplified and ADDR, from any two states, write the same OUT and return the same
text; LoadAddr(a), Decode, LoadAddr(a), Decode of the same word returns the same text twice and ends with the ADDR and
the OUT that the first decode left; two decodes of one word with no LoadAddr between return texts that differ only for
a relative branch, and for all legal parameters a word whose text differs between two addresses is a relative branch.
(Rule R74.) -/
def Obligations.DecodingTheSameInputsGivesTheSameText : Prop :=
  (∀ (s s' : State) (a code : Word) (simplified : Bool) (rest rest' : List HostAction),
    s.addr = some a → s'.addr = some a →
    s.pending = .decode code simplified :: rest → s'.pending = .decode code simplified :: rest' →
    ∃ t t' text, step s = .next t ∧ step s' = .next t' ∧ t.out = t'.out ∧
      t.texts = s.texts ++ [text] ∧ t'.texts = s'.texts ++ [text]) ∧
  (∀ (s : State) (a code : Word) (simplified : Bool) (rest : List HostAction),
    s.pending = .loadAddr a :: .decode code simplified :: .loadAddr a :: .decode code simplified :: rest →
    ∃ t₁ t₂ text, Host.Core.run core 2 s = .next t₁ ∧ Host.Core.run core 4 s = .next t₂ ∧
      t₂.addr = t₁.addr ∧ t₂.out = t₁.out ∧ t₂.texts = s.texts ++ [text, text] ∧ t₂.pending = rest) ∧
  (∀ (s : State) (a code : Word) (simplified : Bool) (rest : List HostAction),
    s.addr = some a → s.pending = .decode code simplified :: .decode code simplified :: rest →
    ∃ t text text', Host.Core.run core 2 s = .next t ∧ t.texts = s.texts ++ [text, text'] ∧
      (text ≠ text' → opcOf code = defaultConfig.opcB ∧ aaOf code = false)) ∧
  ∀ cfg : Config, configOk cfg = true → ∀ (code addr addr' : Word) (simplified : Bool),
    decodeText cfg code addr simplified ≠ decodeText cfg code addr' simplified →
      opcOf code = cfg.opcB ∧ aaOf code = false

/-- From every state with ADDR = a whose next actions present a non-empty list of illegal words, each with its own
setting, one step for each word ends in the state with ADDR advanced by 4 a word, OUT = ILLEGAL of the last word,
their texts returned and nothing else changed: there is no fault, no trap to return from and no sticky bit. (That the
cursor wraps is the spec's decision D2, log 11.) (60_exceptions.md section 1; 42_dispatch.md section 1 (decision D2).)
-/
def Obligations.IllegalWordsLeaveNoTrace : Prop :=
  ∀ (words : List (Word × Bool)) (last : Word × Bool) (rest : List HostAction) (s : State) (a : Word),
    s.addr = some a →
    s.pending = (words ++ [last]).map (fun w => HostAction.decode w.1 w.2) ++ rest →
    (∀ w ∈ words ++ [last], illegalCause defaultConfig w.1 w.2 ≠ none) →
    Host.Core.run core (words.length + 1) s = .next
      { addr := some (a + BitVec.ofNat 32 (4 * (words.length + 1))), out := some ⟨true, "dc.l", [.raw32 last.1]⟩,
        pending := rest,
        texts := s.texts ++ (words ++ [last]).map (fun w => "dc.l    0x" ++ hex8 w.1) }

/-- In a system of any number of instances, a step of instance j leaves every other instance as it was; and steps of
two different instances, each answering a next state, give the same system in either order (the numbering of instances
is the model's choice, log 23). (20_memory.md section 7; 60_exceptions.md section 4.) -/
def Obligations.InstancesShareNoState : Prop :=
  (∀ (y z : System) (j k : Nat), y.stepAt j = .next z → j ≠ k → z.instances[k]? = y.instances[k]?) ∧
  ∀ (y yj yk : System) (j k : Nat), j ≠ k → y.stepAt j = .next yj → y.stepAt k = .next yk →
    ∃ z, yj.stepAt k = .next z ∧ yk.stepAt j = .next z

/-- Two records of mnemonics of at most eight ASCII characters without the null character and of at most three
operands, whose packings are equal, are equal (the packing is a suggestion of the spec, decision D23, and where the
first character goes is the model's choice, log 30). (41_formatter.md section 6 (decision D23).) -/
def Obligations.PackingLosesNoInformation : Prop :=
  ∀ d d' : Decoded,
    d.mnem.length ≤ 8 → d'.mnem.length ≤ 8 → d.ops.length ≤ 3 → d'.ops.length ≤ 3 →
    (∀ c ∈ d.mnem.toList, 0 < c.toNat ∧ c.toNat < 128) → (∀ c ∈ d'.mnem.toList, 0 < c.toNat ∧ c.toNat < 128) →
    pack d = pack d' → d = d'
end

