-- ==== Sys2Proof/Laws/Bytes.lean ====
section
/-! SUPPORT. A word and its four bytes (R22): neither loses a bit of the other. -/

namespace Sys2Proof.Machine

theorem wordOfBytes_extract (code : Word) :
    wordOfBytes (code.extractLsb' 24 8) (code.extractLsb' 16 8) (code.extractLsb' 8 8) (code.extractLsb' 0 8)
      = code := by
  apply BitVec.eq_of_getLsbD_eq
  intro i hi
  have h : i < 32 := hi
  interval_cases i <;> simp [wordOfBytes]

theorem bytesOfWord_wordOfBytes (b0 b1 b2 b3 : Byte) :
    bytesOfWord (wordOfBytes b0 b1 b2 b3) = [b0, b1, b2, b3] := by
  simp only [bytesOfWord, List.cons.injEq, and_true]
  refine ⟨?_, ?_, ?_, ?_⟩ <;>
  · apply BitVec.eq_of_getLsbD_eq
    intro i hi
    have h : i < 8 := hi
    interval_cases i <;> simp [wordOfBytes]

/-- Decoding the bytes of a word, with any bytes after them, is decoding the word. -/
theorem decodeBytes_bytesOfWord (code : Word) (rest : List Byte) (simplified : Bool) :
    decodeBytes (bytesOfWord code ++ rest) simplified = .ok (decodeWord code simplified, rest) := by
  simp only [bytesOfWord, List.cons_append, List.nil_append, decodeBytes, wordOfBytes_extract]

end Sys2Proof.Machine
end

