-- ==== Sys2Proof/Laws/Formatter.lean ====
section
/-! SUPPORT. The lengths of the text primitives and of the record shapes' texts (R55 to R59, R63, R65). -/

namespace Sys2Proof.Machine

@[simp] theorem length_hex4 (v : BitVec 16) : (hex4 v).length = 4 := by simp [hex4]
@[simp] theorem length_hex8 (v : Word) : (hex8 v).length = 8 := by simp [hex8]

theorem length_dec (n : RegNum) : 1 ≤ (dec n).length ∧ (dec n).length ≤ 2 := by
  unfold dec
  split <;> simp

/-- `pad8` fills the column and never truncates (R57). -/
theorem length_pad8 (m : String) : (pad8 m).length = max m.length 8 := by
  simp only [pad8, String.length_append, String.length_ofList, List.length_replicate, mnemonicColumn]
  omega

/-- A mnemonic that a record may carry: at most the column's width, the first letter a lower-case one (R60, R65). -/
def mnemonicOk (m : String) : Bool :=
  decide (m.length ≤ 8) &&
    match m.toList with
    | [] => false
    | c :: _ => decide ('a' ≤ c) && decide (c ≤ 'z')

/-- The separator of the operands is two characters (R58). -/
theorem length_separator : ", ".length = 2 := by decide

theorem length_renderOp_gpr (n : RegNum) : (renderOp (.gpr n)).length ≤ 3 := by
  have := length_dec n
  simp only [renderOp, String.length_append]
  have h : "r".length = 1 := by decide
  omega

theorem length_renderOp_fpr (n : RegNum) : (renderOp (.fpr n)).length ≤ 4 := by
  have := length_dec n
  simp only [renderOp, String.length_append]
  have h : "fp".length = 2 := by decide
  omega

theorem length_renderOp_trapOn (n : RegNum) : (renderOp (.trapOn n)).length ≤ 2 := (length_dec n).2

theorem length_renderOp_imm16 (v : BitVec 16) : (renderOp (.imm16 v)).length = 6 := by
  simp only [renderOp, String.length_append, length_hex4]
  decide

theorem length_renderOp_addr32 (v : Word) : (renderOp (.addr32 v)).length = 10 := by
  simp only [renderOp, String.length_append, length_hex8]
  decide

theorem length_renderOp_raw32 (v : Word) : (renderOp (.raw32 v)).length = 10 := by
  simp only [renderOp, String.length_append, length_hex8]
  decide

/-- The first character of a padded text is that of the mnemonic. -/
theorem toList_pad8_append {m : String} {c : Char} {cs : List Char} (h : m.toList = c :: cs) (t : String) :
    ∃ rest, (pad8 m ++ t).toList = c :: rest := by
  refine ⟨cs ++ List.replicate (mnemonicColumn - m.length) ' ' ++ t.toList, ?_⟩
  simp [pad8, h]

/-- A record with operands has a text of the mnemonic column and the operands; where those are at most 16 characters the
text is as R63 says. -/
theorem textOk_of_ops {d : Decoded} {op : Operand} {rest : List Operand} (hops : d.ops = op :: rest)
    (hm : mnemonicOk d.mnem = true) (hlen : (joinOps ((op :: rest).map renderOp)).length ≤ 16) :
    textOk (render d) = true := by
  have hr : render d = pad8 d.mnem ++ joinOps ((op :: rest).map renderOp) := by simp [render, hops]
  unfold mnemonicOk at hm
  cases hc : d.mnem.toList with
  | nil => simp [hc] at hm
  | cons c cs =>
    simp only [hc, Bool.and_eq_true, decide_eq_true_eq] at hm
    obtain ⟨restChars, hlist⟩ := toList_pad8_append hc (joinOps ((op :: rest).map renderOp))
    have hpad := length_pad8 d.mnem
    have htot : (render d).length = max d.mnem.length 8 + (joinOps ((op :: rest).map renderOp)).length := by
      rw [hr, String.length_append, hpad]
    unfold textOk
    rw [htot, hr, hlist]
    simp only [Bool.and_eq_true, decide_eq_true_eq]
    refine ⟨⟨?_, ?_⟩, hm.2⟩ <;> omega

end Sys2Proof.Machine
end

