-- ==== Sys2Proof/Laws/State.lean ====
section
/-! SUPPORT. One lemma per field for each update of the state. -/

namespace Sys2Proof.Machine

@[simp] theorem State.withPending_addr (s : State) (p : List HostAction) : (s.withPending p).addr = s.addr := rfl
@[simp] theorem State.withPending_out (s : State) (p : List HostAction) : (s.withPending p).out = s.out := rfl
@[simp] theorem State.withPending_pending (s : State) (p : List HostAction) : (s.withPending p).pending = p := rfl
@[simp] theorem State.withPending_texts (s : State) (p : List HostAction) : (s.withPending p).texts = s.texts := rfl

@[simp] theorem State.withAddr_addr (s : State) (a : Word) : (s.withAddr a).addr = some a := rfl
@[simp] theorem State.withAddr_out (s : State) (a : Word) : (s.withAddr a).out = s.out := rfl
@[simp] theorem State.withAddr_pending (s : State) (a : Word) : (s.withAddr a).pending = s.pending := rfl
@[simp] theorem State.withAddr_texts (s : State) (a : Word) : (s.withAddr a).texts = s.texts := rfl

@[simp] theorem State.delivered_addr (s : State) (a : Word) (d : Decoded) :
    (s.delivered a d).addr = some (a + 4) := rfl
@[simp] theorem State.delivered_out (s : State) (a : Word) (d : Decoded) : (s.delivered a d).out = some d := rfl
@[simp] theorem State.delivered_pending (s : State) (a : Word) (d : Decoded) :
    (s.delivered a d).pending = s.pending := rfl
@[simp] theorem State.delivered_texts (s : State) (a : Word) (d : Decoded) :
    (s.delivered a d).texts = s.texts ++ [render d] := rfl

@[simp] theorem State.reset_addr : State.reset.addr = none := rfl
@[simp] theorem State.reset_out : State.reset.out = none := rfl
@[simp] theorem State.reset_pending : State.reset.pending = [] := rfl
@[simp] theorem State.reset_texts : State.reset.texts = [] := rfl

end Sys2Proof.Machine
end

