-- ==== Sys2Proof/Laws/Ops.lean ====
section
/-! SUPPORT. What each shared operation over the state can do, said once. -/

namespace Sys2Proof.Machine

theorem readAddr_eq_ok_iff {s : State} {a : Word} : readAddr s = .ok a ↔ s.addr = some a := by
  unfold readAddr
  cases s.addr <;> simp

theorem readAddr_eq_error_iff {s : State} {r : Refusal} :
    readAddr s = .error r ↔ s.addr = none ∧ r = .addrUnwritten := by
  unfold readAddr
  cases s.addr <;> simp [eq_comm]

theorem readOut_eq_ok_iff {s : State} {d : Decoded} : readOut s = .ok d ↔ s.out = some d := by
  unfold readOut
  cases s.out <;> simp

theorem readOut_eq_error_iff {s : State} {r : Refusal} :
    readOut s = .error r ↔ s.out = none ∧ r = .outUnwritten := by
  unfold readOut
  cases s.out <;> simp [eq_comm]

/-- A decode transaction on a state whose cursor is written. -/
theorem transact_of_addr {h : Word → Decoded} {s : State} {a : Word} (ha : s.addr = some a) :
    transact h s = .next (s.delivered a (h a)) := by
  simp [transact, readAddr, ha]

/-- A decode transaction on a state whose cursor is unwritten. -/
theorem transact_of_unwritten {h : Word → Decoded} {s : State} (ha : s.addr = none) :
    transact h s = .refused .addrUnwritten := by
  simp [transact, readAddr, ha]

/-- All that a decode transaction can do when it answers a next state. -/
theorem transact_eq_next_iff {h : Word → Decoded} {s t : State} :
    transact h s = .next t ↔ ∃ a, s.addr = some a ∧ t = s.delivered a (h a) := by
  cases ha : s.addr with
  | none => simp [transact_of_unwritten ha]
  | some a => simp [transact_of_addr ha, eq_comm]

/-- A decode transaction never faults. -/
theorem transact_ne_fault {h : Word → Decoded} {s : State} {r : Fault} : transact h s ≠ .fault r := nomatch r

theorem loadAddr_eq (a : Word) (s : State) : loadAddr a s = .next (s.withAddr a) := rfl

theorem idle_eq (s : State) : idle s = .next s := rfl

end Sys2Proof.Machine
end

