-- ==== Sys2Proof/Laws/Exec.lean ====
section
/-! SUPPORT. Every instruction is one decode transaction with a record that is as R53, R63 and R65 say. -/

namespace Sys2Proof.Machine

/-- What the records of the block have in common: R53, the text of R63, the mnemonic length of R65. -/
structure GoodRecord (d : Decoded) : Prop where
  wf : d.wf = true
  text : textOk (render d) = true
  short : d.mnem.length ≤ 8

theorem mnemonicOk_short {m : String} (h : mnemonicOk m = true) : m.length ≤ 8 := by
  simp only [mnemonicOk, Bool.and_eq_true, decide_eq_true_eq] at h
  exact h.1

theorem mnemonicOk_ne {m : String} (h : mnemonicOk m = true) : m ≠ "" := by
  rintro rfl
  revert h
  decide

theorem goodRecord_regRegImm {m : String} (h : mnemonicOk m = true) (r a : RegNum) (imm : BitVec 16) :
    GoodRecord (regRegImm m r a imm) := by
  refine ⟨?_, textOk_of_ops rfl h ?_, mnemonicOk_short h⟩
  · simp [Decoded.wf, regRegImm, mnemonicOk_ne h]
  · have h1 := length_renderOp_gpr r
    have h2 := length_renderOp_gpr a
    have h3 := length_renderOp_imm16 imm
    simp only [List.map_cons, List.map_nil, joinOps, String.length_append, length_separator]
    omega

theorem goodRecord_regImm {m : String} (h : mnemonicOk m = true) (r : RegNum) (imm : BitVec 16) :
    GoodRecord (regImm m r imm) := by
  refine ⟨?_, textOk_of_ops rfl h ?_, mnemonicOk_short h⟩
  · simp [Decoded.wf, regImm, mnemonicOk_ne h]
  · have h1 := length_renderOp_gpr r
    have h3 := length_renderOp_imm16 imm
    simp only [List.map_cons, List.map_nil, joinOps, String.length_append, length_separator]
    omega

theorem goodRecord_nop : GoodRecord (bare "nop") := ⟨by decide, by decide, by decide⟩

theorem goodRecord_gprs2 {m : String} (h : mnemonicOk m = true) (x y : RegNum) :
    GoodRecord ⟨false, m, [.gpr x, .gpr y]⟩ := by
  refine ⟨?_, textOk_of_ops rfl h ?_, mnemonicOk_short h⟩
  · simp [Decoded.wf, mnemonicOk_ne h]
  · have h1 := length_renderOp_gpr x
    have h2 := length_renderOp_gpr y
    simp only [List.map_cons, List.map_nil, joinOps, String.length_append, length_separator]
    omega

theorem goodRecord_gprs3 {m : String} (h : mnemonicOk m = true) (x y z : RegNum) :
    GoodRecord ⟨false, m, [.gpr x, .gpr y, .gpr z]⟩ := by
  refine ⟨?_, textOk_of_ops rfl h ?_, mnemonicOk_short h⟩
  · simp [Decoded.wf, mnemonicOk_ne h]
  · have h1 := length_renderOp_gpr x
    have h2 := length_renderOp_gpr y
    have h3 := length_renderOp_gpr z
    simp only [List.map_cons, List.map_nil, joinOps, String.length_append, length_separator]
    omega

theorem goodRecord_loadStoreFp {m : String} (h : mnemonicOk m = true) (x y z : RegNum) :
    GoodRecord (loadStoreFp m x y z) := by
  refine ⟨?_, textOk_of_ops rfl h ?_, mnemonicOk_short h⟩
  · simp [Decoded.wf, loadStoreFp, mnemonicOk_ne h]
  · have h1 := length_renderOp_fpr x
    have h2 := length_renderOp_gpr y
    have h3 := length_renderOp_gpr z
    simp only [List.map_cons, List.map_nil, joinOps, String.length_append, length_separator]
    omega

theorem goodRecord_trapWord (x y z : RegNum) : GoodRecord (trapWord x y z) := by
  refine ⟨by simp [Decoded.wf, trapWord], textOk_of_ops rfl (show mnemonicOk "tw" = true by decide) ?_, show "tw".length ≤ 8 by decide⟩
  have h1 := length_renderOp_trapOn x
  have h2 := length_renderOp_gpr y
  have h3 := length_renderOp_gpr z
  simp only [List.map_cons, List.map_nil, joinOps, String.length_append, length_separator]
  omega

theorem goodRecord_branchTo {m : String} (h : mnemonicOk m = true) (t : Word) : GoodRecord (branchTo m t) := by
  refine ⟨?_, textOk_of_ops rfl h ?_, mnemonicOk_short h⟩
  · simp [Decoded.wf, branchTo, mnemonicOk_ne h]
  · have h1 := length_renderOp_addr32 t
    simp only [List.map_cons, List.map_nil, joinOps]
    omega

theorem goodRecord_illegalRecord (code : Word) : GoodRecord (illegalRecord code) := by
  refine ⟨by simp [Decoded.wf, illegalRecord], textOk_of_ops rfl (show mnemonicOk "dc.l" = true by decide) ?_,
    show "dc.l".length ≤ 8 by decide⟩
  have h1 := length_renderOp_raw32 code
  simp only [List.map_cons, List.map_nil, joinOps]
  omega

/-- Every instruction is one decode transaction whose record is good, whatever its operands. -/
theorem exec_is_transaction (i : Instr) :
    ∃ h : Word → Decoded, (∀ s, exec i s = transact h s) ∧ ∀ a, GoodRecord (h a) := by
  cases i <;>
    first
    | exact ⟨_, fun _ => rfl, fun _ => goodRecord_gprs3 (by decide) _ _ _⟩
    | exact ⟨_, fun _ => rfl, fun _ => goodRecord_gprs2 (by decide) _ _⟩
    | exact ⟨_, fun _ => rfl, fun _ => goodRecord_loadStoreFp (by decide) _ _ _⟩
    | exact ⟨_, fun _ => rfl, fun _ => goodRecord_branchTo (by decide) _⟩
    | exact ⟨_, fun _ => rfl, fun _ => goodRecord_regRegImm (by decide) _ _ _⟩
    | exact ⟨_, fun _ => rfl, fun _ => goodRecord_regImm (by decide) _ _⟩
    | exact ⟨_, fun _ => rfl, fun _ => goodRecord_nop⟩
    | exact ⟨_, fun _ => rfl, fun _ => goodRecord_trapWord _ _ _⟩
    | exact ⟨_, fun _ => rfl, fun _ => goodRecord_illegalRecord _⟩

/-- All that one step can do when it answers a next state: nothing, the host's `LoadAddr`, or one decode transaction with
a good record. -/
theorem step_next_cases {s t : State} (h : step s = .next t) :
    (s.pending = [] ∧ t = s) ∨
    (∃ a rest, s.pending = .loadAddr a :: rest ∧ t = (s.withPending rest).withAddr a) ∨
    (∃ code simplified rest a d, s.pending = .decode code simplified :: rest ∧ s.addr = some a ∧ GoodRecord d ∧
      t = (s.withPending rest).delivered a d) := by
  unfold step at h
  split at h
  · next hp => exact .inl ⟨hp, by simpa [idle] using h.symm⟩
  · next a rest hp => exact .inr (.inl ⟨a, rest, hp, by simpa [loadAddr] using h.symm⟩)
  · next code simplified rest hp =>
    obtain ⟨f, hf, hgood⟩ := exec_is_transaction (decodeWord code simplified)
    rw [hf, transact_eq_next_iff] at h
    obtain ⟨a, ha, rfl⟩ := h
    exact .inr (.inr ⟨code, simplified, rest, a, f a, hp, ha, hgood a, rfl⟩)

/-- A run of `k + 1` steps is one step and a run of `k` steps. -/
theorem run_succ_of_step {s t : State} (k : Nat) (h : step s = .next t) :
    Host.Core.run core (k + 1) s = Host.Core.run core k t := by
  have hs : core.step s = .next t := h
  simp only [Host.Core.run, hs]

/-- One step of a `Decode` with the cursor written: some good record is delivered. -/
theorem step_decode_next {s : State} {a code : Word} {simplified : Bool} {rest : List HostAction}
    (ha : s.addr = some a) (hp : s.pending = .decode code simplified :: rest) :
    ∃ d, GoodRecord d ∧ step s = .next ((s.withPending rest).delivered a d) := by
  obtain ⟨f, hf, hgood⟩ := exec_is_transaction (decodeWord code simplified)
  refine ⟨f a, hgood a, ?_⟩
  simp only [step, hp, hf]
  exact transact_of_addr (by simpa using ha)

end Sys2Proof.Machine
end

