-- ==== Sys2Proof/Laws/Fields.lean ====
section
/-! SUPPORT. The fields of an encoded word, and a word put together again from its fields and from its bytes. -/

namespace Sys2Proof

open Sys2Proof.Machine

section formatX
variable (rs ra rb : RegNum) (e : BitVec 10) (rc : Bool)

@[simp] theorem opcOf_encodeX : opcOf (encodeX rs ra rb e rc) = opcExt := by
  apply BitVec.eq_of_getLsbD_eq
  intro i hi
  rcases i with _ | _ | _ | _ | _ | _ | i <;> first | omega | simp [opcOf, encodeX, opcExt]

@[simp] theorem rsOf_encodeX : rsOf (encodeX rs ra rb e rc) = rs := by
  apply BitVec.eq_of_getLsbD_eq
  intro i hi
  rcases i with _ | _ | _ | _ | _ | i <;> first | omega | simp [rsOf, encodeX, opcExt]

@[simp] theorem raOf_encodeX : raOf (encodeX rs ra rb e rc) = ra := by
  apply BitVec.eq_of_getLsbD_eq
  intro i hi
  rcases i with _ | _ | _ | _ | _ | i <;> first | omega | simp [raOf, encodeX, opcExt]

@[simp] theorem rbOf_encodeX : rbOf (encodeX rs ra rb e rc) = rb := by
  apply BitVec.eq_of_getLsbD_eq
  intro i hi
  rcases i with _ | _ | _ | _ | _ | i <;> first | omega | simp [rbOf, encodeX, opcExt]

@[simp] theorem extOpcOf_encodeX : extOpcOf (encodeX rs ra rb e rc) = e := by
  apply BitVec.eq_of_getLsbD_eq
  intro i hi
  rcases i with _ | _ | _ | _ | _ | _ | _ | _ | _ | _ | i <;> first | omega | simp [extOpcOf, encodeX, opcExt]

@[simp] theorem rcOf_encodeX : rcOf (encodeX rs ra rb e rc) = rc := by
  simp [rcOf, encodeX, opcExt]

end formatX

/-- The selector, the indices and the overflow-enable bit are parts of the extended opcode (R31). -/
theorem selOf_eq (code : Word) : selOf code = (extOpcOf code).extractLsb' 0 5 := by
  apply BitVec.eq_of_getLsbD_eq
  intro i hi
  rcases i with _ | _ | _ | _ | _ | i <;> first | omega | simp [selOf, extOpcOf]

theorem idx4Of_eq (code : Word) : idx4Of code = (extOpcOf code).extractLsb' 5 4 := by
  apply BitVec.eq_of_getLsbD_eq
  intro i hi
  rcases i with _ | _ | _ | _ | i <;> first | omega | simp [idx4Of, extOpcOf]

theorem idx5Of_eq (code : Word) : idx5Of code = (extOpcOf code).extractLsb' 5 5 := by
  apply BitVec.eq_of_getLsbD_eq
  intro i hi
  rcases i with _ | _ | _ | _ | _ | i <;> first | omega | simp [idx5Of, extOpcOf]

theorem oeOf_eq (code : Word) : oeOf code = (extOpcOf code).getLsbD 9 := by
  simp [oeOf, extOpcOf]

section formatD
variable (opc : BitVec 6) (r a : RegNum) (imm : BitVec 16)

@[simp] theorem opcOf_encodeD : opcOf (encodeD opc r a imm) = opc := by
  apply BitVec.eq_of_getLsbD_eq
  intro i hi
  rcases i with _ | _ | _ | _ | _ | _ | i <;> first | omega | simp [opcOf, encodeD]

@[simp] theorem rsOf_encodeD : rsOf (encodeD opc r a imm) = r := by
  apply BitVec.eq_of_getLsbD_eq
  intro i hi
  rcases i with _ | _ | _ | _ | _ | i <;> first | omega | simp [rsOf, encodeD]

@[simp] theorem raOf_encodeD : raOf (encodeD opc r a imm) = a := by
  apply BitVec.eq_of_getLsbD_eq
  intro i hi
  rcases i with _ | _ | _ | _ | _ | i <;> first | omega | simp [raOf, encodeD]

@[simp] theorem immOf_encodeD : immOf (encodeD opc r a imm) = imm := by
  apply BitVec.eq_of_getLsbD_eq
  intro i hi
  have h : i < 16 := hi
  interval_cases i <;> simp [immOf, encodeD]

end formatD

section formatI
variable (opc : BitVec 6) (li24 : BitVec 24) (aa lk : Bool)

@[simp] theorem opcOf_encodeI : opcOf (encodeI opc li24 aa lk) = opc := by
  apply BitVec.eq_of_getLsbD_eq
  intro i hi
  rcases i with _ | _ | _ | _ | _ | _ | i <;> first | omega | simp [opcOf, encodeI]

@[simp] theorem li24Of_encodeI : li24Of (encodeI opc li24 aa lk) = li24 := by
  apply BitVec.eq_of_getLsbD_eq
  intro i hi
  have h : i < 24 := hi
  interval_cases i <;> simp [li24Of, encodeI]

@[simp] theorem aaOf_encodeI : aaOf (encodeI opc li24 aa lk) = aa := by
  simp [aaOf, encodeI]

@[simp] theorem lkOf_encodeI : lkOf (encodeI opc li24 aa lk) = lk := by
  simp [lkOf, encodeI]

end formatI

/-- The extended opcode is `OE`, the four-bit index and the selector put together (R31, R37). -/
theorem extOpcOf_eq_oe_idx4_sel (code : Word) :
    extOpcOf code = (BitVec.ofBool (oeOf code)).setWidth 10 <<< 9 ||| (idx4Of code).setWidth 10 <<< 5 |||
      (selOf code).setWidth 10 := by
  apply BitVec.eq_of_getLsbD_eq
  intro i hi
  have h : i < 10 := hi
  interval_cases i <;> simp [extOpcOf, oeOf, idx4Of, selOf]

/-- The extended opcode is the five-bit index and the selector put together (R31, R37). -/
theorem extOpcOf_eq_idx5_sel (code : Word) :
    extOpcOf code = (idx5Of code).setWidth 10 <<< 5 ||| (selOf code).setWidth 10 := by
  apply BitVec.eq_of_getLsbD_eq
  intro i hi
  have h : i < 10 := hi
  interval_cases i <;> simp [extOpcOf, idx5Of, selOf]

/-- A word of the extended group is its fields put together: no bit belongs to none of them (R32). -/
theorem encodeX_of_fields {code : Word} (h : opcOf code = opcExt) :
    encodeX (rsOf code) (raOf code) (rbOf code) (extOpcOf code) (rcOf code) = code := by
  unfold encodeX
  rw [← h]
  apply BitVec.eq_of_getLsbD_eq
  intro i hi
  have h : i < 32 := hi
  interval_cases i <;> simp [opcOf, rsOf, raOf, rbOf, extOpcOf, rcOf]

/-- A word of format `FMT_D` is its fields put together (R32). -/
theorem encodeD_of_fields (code : Word) :
    encodeD (opcOf code) (rsOf code) (raOf code) (immOf code) = code := by
  apply BitVec.eq_of_getLsbD_eq
  intro i hi
  have h : i < 32 := hi
  interval_cases i <;> simp [encodeD, opcOf, rsOf, raOf, immOf]

/-- A word of format `FMT_I` is its fields put together (R32). -/
theorem encodeI_of_fields (code : Word) :
    encodeI (opcOf code) (li24Of code) (aaOf code) (lkOf code) = code := by
  apply BitVec.eq_of_getLsbD_eq
  intro i hi
  have h : i < 32 := hi
  interval_cases i <;> simp [encodeI, opcOf, li24Of, aaOf, lkOf]

/-- Masking bits 25:2 of a branch word leaves `LI24` where it stands (R34). -/
theorem branch_mask_eq (code : Word) : code &&& 0x03FFFFFC#32 = (li24Of code).setWidth 32 <<< 2 := by
  apply BitVec.eq_of_getLsbD_eq
  intro i hi
  have h : i < 32 := hi
  rw [BitVec.getLsbD_and]
  interval_cases i <;> simp [li24Of]

end Sys2Proof
end

