-- ==== Sys2Proof/Laws/Handlers.lean ====
section
/-! SUPPORT. The dispatch ROM's look-up and the default parameters. -/

namespace Sys2Proof.Machine

/-- The look-up answers the handler of the opcode, for every opcode (R71: total coverage). -/
theorem dispatch_eq (cfg : Config) (opc : BitVec 6) : dispatch cfg opc = handlerFor cfg opc := by
  have h : opc.toNat < 64 := opc.isLt
  simp [dispatch, dispatchRom, primaryOpcodes, List.getD_eq_getElem?_getD, List.getElem?_map, List.getElem?_range h]

@[simp] theorem dispatch_default_addi : dispatch defaultConfig defaultConfig.opcAddi = .addi := by decide
@[simp] theorem dispatch_default_ori : dispatch defaultConfig opcOri = .ori := by decide
@[simp] theorem dispatch_default_branch : dispatch defaultConfig defaultConfig.opcB = .branch := by decide
@[simp] theorem dispatch_default_ext : dispatch defaultConfig opcExt = .ext := by decide

/-- Which opcode a handler of the dispatch ROM belongs to. -/
theorem opc_of_dispatch_addi {cfg : Config} {opc : BitVec 6} (h : dispatch cfg opc = .addi) : opc = cfg.opcAddi := by
  rw [dispatch_eq, handlerFor] at h
  split_ifs at h
  assumption

theorem opc_of_dispatch_ori {cfg : Config} {opc : BitVec 6} (h : dispatch cfg opc = .ori) : opc = opcOri := by
  rw [dispatch_eq, handlerFor] at h
  split_ifs at h
  assumption

theorem opc_of_dispatch_branch {cfg : Config} {opc : BitVec 6} (h : dispatch cfg opc = .branch) : opc = cfg.opcB := by
  rw [dispatch_eq, handlerFor] at h
  split_ifs at h
  assumption

theorem opc_of_dispatch_ext {cfg : Config} {opc : BitVec 6} (h : dispatch cfg opc = .ext) : opc = opcExt := by
  rw [dispatch_eq, handlerFor] at h
  split_ifs at h
  assumption

/-- Which handler an opcode selects, from the four handled opcodes in the order of the tests (R71). -/
theorem dispatch_eq_illegal_iff {cfg : Config} {opc : BitVec 6} :
    dispatch cfg opc = .illegal ↔ opc ≠ cfg.opcAddi ∧ opc ≠ opcOri ∧ opc ≠ cfg.opcB ∧ opc ≠ opcExt := by
  rw [dispatch_eq, handlerFor]
  split_ifs <;> simp_all

/-- What a ROM look-up answers is an entry of the ROM (R18). -/
theorem mem_of_rom_eq_some {T : Rom} {i : Nat} {m : String} (h : rom T i = some m) : some m ∈ T := by
  unfold rom at h
  split at h
  · next e he => exact h ▸ List.mem_of_getElem? he
  · cases h

/-- A look-up beyond the end of a ROM answers no mnemonic (R18). -/
theorem rom_eq_none_of_length_le {T : Rom} {i : Nat} (h : T.length ≤ i) : rom T i = none := by
  simp [rom, List.getElem?_eq_none h]

/-- What the constraints on the parameters say (R6, R18, U15, U16). -/
structure ConfigFacts (cfg : Config) : Prop where
  addi_ne_b : cfg.opcAddi ≠ cfg.opcB
  addi_ne_ori : cfg.opcAddi ≠ opcOri
  addi_ne_ext : cfg.opcAddi ≠ opcExt
  b_ne_ori : cfg.opcB ≠ opcOri
  b_ne_ext : cfg.opcB ≠ opcExt
  sub_length : cfg.subRom.length = 16
  ldst_length : cfg.ldstRom.length = 24
  or_entry : rom cfg.logicRom 13 = some "or"
  sub_entries : ∀ e ∈ cfg.subRom, romEntryOk e = true
  logic_entries : ∀ e ∈ cfg.logicRom, romEntryOk e = true
  ldst_entries : ∀ e ∈ cfg.ldstRom, romEntryOk e = true

theorem configFacts {cfg : Config} (h : configOk cfg = true) : ConfigFacts cfg := by
  simp only [configOk, Bool.and_eq_true, bne_iff_ne, ne_eq, beq_iff_eq, List.all_eq_true] at h
  obtain ⟨⟨⟨⟨⟨⟨⟨⟨⟨⟨h1, h2⟩, h3⟩, h4⟩, h5⟩, h6⟩, h7⟩, h8⟩, h9⟩, h10⟩, h11⟩ := h
  exact ⟨h1, h2, h3, h4, h5, h6, h7, h8, h9, h10, h11⟩

/-- A ROM entry is not the empty text (R18). -/
theorem romEntry_ne_empty {m : String} (h : romEntryOk (some m) = true) : m ≠ "" := by
  simp only [romEntryOk, Bool.and_eq_true, bne_iff_ne] at h
  exact h.1

theorem defaultConfig_ok : configOk defaultConfig = true := by decide

end Sys2Proof.Machine
end

