-- ==== Sys2Proof/Laws/PerInstr.lean ====
section
/-! SUPPORT. A law stated per instruction: the word an instruction encodes to agrees with its row of the opcode table on
the row's mask (R39). -/

namespace Sys2Proof

open Sys2Proof.Machine

theorem encodeX_and_mask (rs ra rb : RegNum) (e : BitVec 10) (rc : Bool) :
    encodeX rs ra rb e rc &&& 0xFC0007FF = encodeX 0 0 0 e rc := by
  apply BitVec.eq_of_getLsbD_eq
  intro i hi
  have h : i < 32 := hi
  rw [BitVec.getLsbD_and]
  interval_cases i <;> simp [encodeX, opcExt]

theorem encodeX_and_mask_rb (rs ra : RegNum) (e : BitVec 10) (rc : Bool) :
    encodeX rs ra 0 e rc &&& 0xFC00FFFF = encodeX 0 0 0 e rc := by
  apply BitVec.eq_of_getLsbD_eq
  intro i hi
  have h : i < 32 := hi
  rw [BitVec.getLsbD_and]
  interval_cases i <;> simp [encodeX, opcExt]

theorem encodeD_and_mask (opc : BitVec 6) (r a : RegNum) (imm : BitVec 16) :
    encodeD opc r a imm &&& 0xFC000000 = encodeD opc 0 0 0 := by
  apply BitVec.eq_of_getLsbD_eq
  intro i hi
  have h : i < 32 := hi
  rw [BitVec.getLsbD_and]
  interval_cases i <;> simp [encodeD]

theorem encodeD_and_mask_ra (opc : BitVec 6) (r : RegNum) (imm : BitVec 16) :
    encodeD opc r 0 imm &&& 0xFC1F0000 = encodeD opc 0 0 0 := by
  apply BitVec.eq_of_getLsbD_eq
  intro i hi
  have h : i < 32 := hi
  rw [BitVec.getLsbD_and]
  interval_cases i <;> simp [encodeD]

theorem encodeD_and_mask_imm (opc : BitVec 6) (r a : RegNum) :
    encodeD opc r a 0 &&& 0xFC00FFFF = encodeD opc 0 0 0 := by
  apply BitVec.eq_of_getLsbD_eq
  intro i hi
  have h : i < 32 := hi
  rw [BitVec.getLsbD_and]
  interval_cases i <;> simp [encodeD]

theorem encodeI_and_mask (opc : BitVec 6) (li24 : BitVec 24) (aa lk : Bool) :
    encodeI opc li24 aa lk &&& 0xFC000003 = encodeI opc 0 aa lk := by
  apply BitVec.eq_of_getLsbD_eq
  intro i hi
  have h : i < 32 := hi
  rw [BitVec.getLsbD_and]
  interval_cases i <;> simp [encodeI]

namespace Laws.TableRowMatch

/-- The encoding of the instruction matches the mask and match of its row (R39). -/
def Statement (i : Instr) : Prop :=
  encode i &&& (tableRow i).mask = (tableRow i).pattern

end Laws.TableRowMatch

open Laws.TableRowMatch

theorem Laws.TableRowMatch.li (rd : RegNum) (imm : BitVec 16) : Statement (.li rd imm) := 
  (encodeD_and_mask_ra _ _ _).trans (show encodeD defaultConfig.opcAddi 0 0 0 = (0x38000000 : Word) by decide)

theorem Laws.TableRowMatch.addi (rd ra : RegNum) (imm : BitVec 16) : Statement (.addi rd ra imm) := 
  (encodeD_and_mask _ _ _ _).trans (show encodeD defaultConfig.opcAddi 0 0 0 = (0x38000000 : Word) by decide)

theorem Laws.TableRowMatch.nop : Statement (.nop) := by
  unfold Statement
  decide

theorem Laws.TableRowMatch.mrOri (rs ra : RegNum) : Statement (.mrOri rs ra) := 
  (encodeD_and_mask_imm _ _ _).trans (show encodeD opcOri 0 0 0 = (0x60000000 : Word) by decide)

theorem Laws.TableRowMatch.ori (rs ra : RegNum) (imm : BitVec 16) : Statement (.ori rs ra imm) := 
  (encodeD_and_mask _ _ _ _).trans (show encodeD opcOri 0 0 0 = (0x60000000 : Word) by decide)

theorem Laws.TableRowMatch.b (li24 : BitVec 24) : Statement (.b li24) := 
  (encodeI_and_mask _ _ _ _).trans (show encodeI defaultConfig.opcB 0 false false = (0x48000000 : Word) by decide)

theorem Laws.TableRowMatch.bl (li24 : BitVec 24) : Statement (.bl li24) := 
  (encodeI_and_mask _ _ _ _).trans (show encodeI defaultConfig.opcB 0 false true = (0x48000001 : Word) by decide)

theorem Laws.TableRowMatch.ba (li24 : BitVec 24) : Statement (.ba li24) := 
  (encodeI_and_mask _ _ _ _).trans (show encodeI defaultConfig.opcB 0 true false = (0x48000002 : Word) by decide)

theorem Laws.TableRowMatch.bla (li24 : BitVec 24) : Statement (.bla li24) := 
  (encodeI_and_mask _ _ _ _).trans (show encodeI defaultConfig.opcB 0 true true = (0x48000003 : Word) by decide)

theorem Laws.TableRowMatch.subfc (rs ra rb : RegNum) : Statement (.subfc rs ra rb) := 
  (encodeX_and_mask _ _ _ _ _).trans (show encodeX 0 0 0 8 false = (0x7C000010 : Word) by decide)

theorem Laws.TableRowMatch.subfcRc (rs ra rb : RegNum) : Statement (.subfcRc rs ra rb) := 
  (encodeX_and_mask _ _ _ _ _).trans (show encodeX 0 0 0 8 true = (0x7C000011 : Word) by decide)

theorem Laws.TableRowMatch.subfcOe (rs ra rb : RegNum) : Statement (.subfcOe rs ra rb) := 
  (encodeX_and_mask _ _ _ _ _).trans (show encodeX 0 0 0 520 false = (0x7C000410 : Word) by decide)

theorem Laws.TableRowMatch.subfcOeRc (rs ra rb : RegNum) : Statement (.subfcOeRc rs ra rb) := 
  (encodeX_and_mask _ _ _ _ _).trans (show encodeX 0 0 0 520 true = (0x7C000411 : Word) by decide)

theorem Laws.TableRowMatch.subf (rs ra rb : RegNum) : Statement (.subf rs ra rb) := 
  (encodeX_and_mask _ _ _ _ _).trans (show encodeX 0 0 0 40 false = (0x7C000050 : Word) by decide)

theorem Laws.TableRowMatch.subfRc (rs ra rb : RegNum) : Statement (.subfRc rs ra rb) := 
  (encodeX_and_mask _ _ _ _ _).trans (show encodeX 0 0 0 40 true = (0x7C000051 : Word) by decide)

theorem Laws.TableRowMatch.subfOe (rs ra rb : RegNum) : Statement (.subfOe rs ra rb) := 
  (encodeX_and_mask _ _ _ _ _).trans (show encodeX 0 0 0 552 false = (0x7C000450 : Word) by decide)

theorem Laws.TableRowMatch.subfOeRc (rs ra rb : RegNum) : Statement (.subfOeRc rs ra rb) := 
  (encodeX_and_mask _ _ _ _ _).trans (show encodeX 0 0 0 552 true = (0x7C000451 : Word) by decide)

theorem Laws.TableRowMatch.neg (rs ra : RegNum) : Statement (.neg rs ra) := 
  (encodeX_and_mask_rb _ _ _ _).trans (show encodeX 0 0 0 104 false = (0x7C0000D0 : Word) by decide)

theorem Laws.TableRowMatch.negRc (rs ra : RegNum) : Statement (.negRc rs ra) := 
  (encodeX_and_mask_rb _ _ _ _).trans (show encodeX 0 0 0 104 true = (0x7C0000D1 : Word) by decide)

theorem Laws.TableRowMatch.negOe (rs ra : RegNum) : Statement (.negOe rs ra) := 
  (encodeX_and_mask_rb _ _ _ _).trans (show encodeX 0 0 0 616 false = (0x7C0004D0 : Word) by decide)

theorem Laws.TableRowMatch.negOeRc (rs ra : RegNum) : Statement (.negOeRc rs ra) := 
  (encodeX_and_mask_rb _ _ _ _).trans (show encodeX 0 0 0 616 true = (0x7C0004D1 : Word) by decide)

theorem Laws.TableRowMatch.subfe (rs ra rb : RegNum) : Statement (.subfe rs ra rb) := 
  (encodeX_and_mask _ _ _ _ _).trans (show encodeX 0 0 0 136 false = (0x7C000110 : Word) by decide)

theorem Laws.TableRowMatch.subfeRc (rs ra rb : RegNum) : Statement (.subfeRc rs ra rb) := 
  (encodeX_and_mask _ _ _ _ _).trans (show encodeX 0 0 0 136 true = (0x7C000111 : Word) by decide)

theorem Laws.TableRowMatch.subfeOe (rs ra rb : RegNum) : Statement (.subfeOe rs ra rb) := 
  (encodeX_and_mask _ _ _ _ _).trans (show encodeX 0 0 0 648 false = (0x7C000510 : Word) by decide)

theorem Laws.TableRowMatch.subfeOeRc (rs ra rb : RegNum) : Statement (.subfeOeRc rs ra rb) := 
  (encodeX_and_mask _ _ _ _ _).trans (show encodeX 0 0 0 648 true = (0x7C000511 : Word) by decide)

theorem Laws.TableRowMatch.subfze (rs ra : RegNum) : Statement (.subfze rs ra) := 
  (encodeX_and_mask_rb _ _ _ _).trans (show encodeX 0 0 0 200 false = (0x7C000190 : Word) by decide)

theorem Laws.TableRowMatch.subfzeRc (rs ra : RegNum) : Statement (.subfzeRc rs ra) := 
  (encodeX_and_mask_rb _ _ _ _).trans (show encodeX 0 0 0 200 true = (0x7C000191 : Word) by decide)

theorem Laws.TableRowMatch.subfzeOe (rs ra : RegNum) : Statement (.subfzeOe rs ra) := 
  (encodeX_and_mask_rb _ _ _ _).trans (show encodeX 0 0 0 712 false = (0x7C000590 : Word) by decide)

theorem Laws.TableRowMatch.subfzeOeRc (rs ra : RegNum) : Statement (.subfzeOeRc rs ra) := 
  (encodeX_and_mask_rb _ _ _ _).trans (show encodeX 0 0 0 712 true = (0x7C000591 : Word) by decide)

theorem Laws.TableRowMatch.subfme (rs ra : RegNum) : Statement (.subfme rs ra) := 
  (encodeX_and_mask_rb _ _ _ _).trans (show encodeX 0 0 0 232 false = (0x7C0001D0 : Word) by decide)

theorem Laws.TableRowMatch.subfmeRc (rs ra : RegNum) : Statement (.subfmeRc rs ra) := 
  (encodeX_and_mask_rb _ _ _ _).trans (show encodeX 0 0 0 232 true = (0x7C0001D1 : Word) by decide)

theorem Laws.TableRowMatch.subfmeOe (rs ra : RegNum) : Statement (.subfmeOe rs ra) := 
  (encodeX_and_mask_rb _ _ _ _).trans (show encodeX 0 0 0 744 false = (0x7C0005D0 : Word) by decide)

theorem Laws.TableRowMatch.subfmeOeRc (rs ra : RegNum) : Statement (.subfmeOeRc rs ra) := 
  (encodeX_and_mask_rb _ _ _ _).trans (show encodeX 0 0 0 744 true = (0x7C0005D1 : Word) by decide)

theorem Laws.TableRowMatch.doz (rs ra rb : RegNum) : Statement (.doz rs ra rb) := 
  (encodeX_and_mask _ _ _ _ _).trans (show encodeX 0 0 0 264 false = (0x7C000210 : Word) by decide)

theorem Laws.TableRowMatch.dozRc (rs ra rb : RegNum) : Statement (.dozRc rs ra rb) := 
  (encodeX_and_mask _ _ _ _ _).trans (show encodeX 0 0 0 264 true = (0x7C000211 : Word) by decide)

theorem Laws.TableRowMatch.dozOe (rs ra rb : RegNum) : Statement (.dozOe rs ra rb) := 
  (encodeX_and_mask _ _ _ _ _).trans (show encodeX 0 0 0 776 false = (0x7C000610 : Word) by decide)

theorem Laws.TableRowMatch.dozOeRc (rs ra rb : RegNum) : Statement (.dozOeRc rs ra rb) := 
  (encodeX_and_mask _ _ _ _ _).trans (show encodeX 0 0 0 776 true = (0x7C000611 : Word) by decide)

theorem Laws.TableRowMatch.abs (rs ra : RegNum) : Statement (.abs rs ra) := 
  (encodeX_and_mask_rb _ _ _ _).trans (show encodeX 0 0 0 360 false = (0x7C0002D0 : Word) by decide)

theorem Laws.TableRowMatch.absRc (rs ra : RegNum) : Statement (.absRc rs ra) := 
  (encodeX_and_mask_rb _ _ _ _).trans (show encodeX 0 0 0 360 true = (0x7C0002D1 : Word) by decide)

theorem Laws.TableRowMatch.absOe (rs ra : RegNum) : Statement (.absOe rs ra) := 
  (encodeX_and_mask_rb _ _ _ _).trans (show encodeX 0 0 0 872 false = (0x7C0006D0 : Word) by decide)

theorem Laws.TableRowMatch.absOeRc (rs ra : RegNum) : Statement (.absOeRc rs ra) := 
  (encodeX_and_mask_rb _ _ _ _).trans (show encodeX 0 0 0 872 true = (0x7C0006D1 : Word) by decide)

theorem Laws.TableRowMatch.nabs (rs ra : RegNum) : Statement (.nabs rs ra) := 
  (encodeX_and_mask_rb _ _ _ _).trans (show encodeX 0 0 0 488 false = (0x7C0003D0 : Word) by decide)

theorem Laws.TableRowMatch.nabsRc (rs ra : RegNum) : Statement (.nabsRc rs ra) := 
  (encodeX_and_mask_rb _ _ _ _).trans (show encodeX 0 0 0 488 true = (0x7C0003D1 : Word) by decide)

theorem Laws.TableRowMatch.nabsOe (rs ra : RegNum) : Statement (.nabsOe rs ra) := 
  (encodeX_and_mask_rb _ _ _ _).trans (show encodeX 0 0 0 1000 false = (0x7C0007D0 : Word) by decide)

theorem Laws.TableRowMatch.nabsOeRc (rs ra : RegNum) : Statement (.nabsOeRc rs ra) := 
  (encodeX_and_mask_rb _ _ _ _).trans (show encodeX 0 0 0 1000 true = (0x7C0007D1 : Word) by decide)

theorem Laws.TableRowMatch.mrOr (rs ra rb : RegNum) : Statement (.mrOr rs ra rb) := 
  (encodeX_and_mask _ _ _ _ _).trans (show encodeX 0 0 0 444 false = (0x7C000378 : Word) by decide)

theorem Laws.TableRowMatch.mrOrRc (rs ra rb : RegNum) : Statement (.mrOrRc rs ra rb) := 
  (encodeX_and_mask _ _ _ _ _).trans (show encodeX 0 0 0 444 true = (0x7C000379 : Word) by decide)

theorem Laws.TableRowMatch.and (rs ra rb : RegNum) : Statement (.and rs ra rb) := 
  (encodeX_and_mask _ _ _ _ _).trans (show encodeX 0 0 0 28 false = (0x7C000038 : Word) by decide)

theorem Laws.TableRowMatch.andRc (rs ra rb : RegNum) : Statement (.andRc rs ra rb) := 
  (encodeX_and_mask _ _ _ _ _).trans (show encodeX 0 0 0 28 true = (0x7C000039 : Word) by decide)

theorem Laws.TableRowMatch.andc (rs ra rb : RegNum) : Statement (.andc rs ra rb) := 
  (encodeX_and_mask _ _ _ _ _).trans (show encodeX 0 0 0 60 false = (0x7C000078 : Word) by decide)

theorem Laws.TableRowMatch.andcRc (rs ra rb : RegNum) : Statement (.andcRc rs ra rb) := 
  (encodeX_and_mask _ _ _ _ _).trans (show encodeX 0 0 0 60 true = (0x7C000079 : Word) by decide)

theorem Laws.TableRowMatch.nor (rs ra rb : RegNum) : Statement (.nor rs ra rb) := 
  (encodeX_and_mask _ _ _ _ _).trans (show encodeX 0 0 0 124 false = (0x7C0000F8 : Word) by decide)

theorem Laws.TableRowMatch.norRc (rs ra rb : RegNum) : Statement (.norRc rs ra rb) := 
  (encodeX_and_mask _ _ _ _ _).trans (show encodeX 0 0 0 124 true = (0x7C0000F9 : Word) by decide)

theorem Laws.TableRowMatch.eqv (rs ra rb : RegNum) : Statement (.eqv rs ra rb) := 
  (encodeX_and_mask _ _ _ _ _).trans (show encodeX 0 0 0 284 false = (0x7C000238 : Word) by decide)

theorem Laws.TableRowMatch.eqvRc (rs ra rb : RegNum) : Statement (.eqvRc rs ra rb) := 
  (encodeX_and_mask _ _ _ _ _).trans (show encodeX 0 0 0 284 true = (0x7C000239 : Word) by decide)

theorem Laws.TableRowMatch.xor (rs ra rb : RegNum) : Statement (.xor rs ra rb) := 
  (encodeX_and_mask _ _ _ _ _).trans (show encodeX 0 0 0 316 false = (0x7C000278 : Word) by decide)

theorem Laws.TableRowMatch.xorRc (rs ra rb : RegNum) : Statement (.xorRc rs ra rb) := 
  (encodeX_and_mask _ _ _ _ _).trans (show encodeX 0 0 0 316 true = (0x7C000279 : Word) by decide)

theorem Laws.TableRowMatch.orc (rs ra rb : RegNum) : Statement (.orc rs ra rb) := 
  (encodeX_and_mask _ _ _ _ _).trans (show encodeX 0 0 0 412 false = (0x7C000338 : Word) by decide)

theorem Laws.TableRowMatch.orcRc (rs ra rb : RegNum) : Statement (.orcRc rs ra rb) := 
  (encodeX_and_mask _ _ _ _ _).trans (show encodeX 0 0 0 412 true = (0x7C000339 : Word) by decide)

theorem Laws.TableRowMatch.or (rs ra rb : RegNum) : Statement (.or rs ra rb) := 
  (encodeX_and_mask _ _ _ _ _).trans (show encodeX 0 0 0 444 false = (0x7C000378 : Word) by decide)

theorem Laws.TableRowMatch.orRc (rs ra rb : RegNum) : Statement (.orRc rs ra rb) := 
  (encodeX_and_mask _ _ _ _ _).trans (show encodeX 0 0 0 444 true = (0x7C000379 : Word) by decide)

theorem Laws.TableRowMatch.nand (rs ra rb : RegNum) : Statement (.nand rs ra rb) := 
  (encodeX_and_mask _ _ _ _ _).trans (show encodeX 0 0 0 476 false = (0x7C0003B8 : Word) by decide)

theorem Laws.TableRowMatch.nandRc (rs ra rb : RegNum) : Statement (.nandRc rs ra rb) := 
  (encodeX_and_mask _ _ _ _ _).trans (show encodeX 0 0 0 476 true = (0x7C0003B9 : Word) by decide)

theorem Laws.TableRowMatch.lwzx (rs ra rb : RegNum) : Statement (.lwzx rs ra rb) := 
  (encodeX_and_mask _ _ _ _ _).trans (show encodeX 0 0 0 23 false = (0x7C00002E : Word) by decide)

theorem Laws.TableRowMatch.lwzux (rs ra rb : RegNum) : Statement (.lwzux rs ra rb) := 
  (encodeX_and_mask _ _ _ _ _).trans (show encodeX 0 0 0 55 false = (0x7C00006E : Word) by decide)

theorem Laws.TableRowMatch.lbzx (rs ra rb : RegNum) : Statement (.lbzx rs ra rb) := 
  (encodeX_and_mask _ _ _ _ _).trans (show encodeX 0 0 0 87 false = (0x7C0000AE : Word) by decide)

theorem Laws.TableRowMatch.lbzux (rs ra rb : RegNum) : Statement (.lbzux rs ra rb) := 
  (encodeX_and_mask _ _ _ _ _).trans (show encodeX 0 0 0 119 false = (0x7C0000EE : Word) by decide)

theorem Laws.TableRowMatch.stwx (rs ra rb : RegNum) : Statement (.stwx rs ra rb) := 
  (encodeX_and_mask _ _ _ _ _).trans (show encodeX 0 0 0 151 false = (0x7C00012E : Word) by decide)

theorem Laws.TableRowMatch.stwux (rs ra rb : RegNum) : Statement (.stwux rs ra rb) := 
  (encodeX_and_mask _ _ _ _ _).trans (show encodeX 0 0 0 183 false = (0x7C00016E : Word) by decide)

theorem Laws.TableRowMatch.stbx (rs ra rb : RegNum) : Statement (.stbx rs ra rb) := 
  (encodeX_and_mask _ _ _ _ _).trans (show encodeX 0 0 0 215 false = (0x7C0001AE : Word) by decide)

theorem Laws.TableRowMatch.stbux (rs ra rb : RegNum) : Statement (.stbux rs ra rb) := 
  (encodeX_and_mask _ _ _ _ _).trans (show encodeX 0 0 0 247 false = (0x7C0001EE : Word) by decide)

theorem Laws.TableRowMatch.lhzx (rs ra rb : RegNum) : Statement (.lhzx rs ra rb) := 
  (encodeX_and_mask _ _ _ _ _).trans (show encodeX 0 0 0 279 false = (0x7C00022E : Word) by decide)

theorem Laws.TableRowMatch.lhzux (rs ra rb : RegNum) : Statement (.lhzux rs ra rb) := 
  (encodeX_and_mask _ _ _ _ _).trans (show encodeX 0 0 0 311 false = (0x7C00026E : Word) by decide)

theorem Laws.TableRowMatch.lhax (rs ra rb : RegNum) : Statement (.lhax rs ra rb) := 
  (encodeX_and_mask _ _ _ _ _).trans (show encodeX 0 0 0 343 false = (0x7C0002AE : Word) by decide)

theorem Laws.TableRowMatch.lhaux (rs ra rb : RegNum) : Statement (.lhaux rs ra rb) := 
  (encodeX_and_mask _ _ _ _ _).trans (show encodeX 0 0 0 375 false = (0x7C0002EE : Word) by decide)

theorem Laws.TableRowMatch.sthx (rs ra rb : RegNum) : Statement (.sthx rs ra rb) := 
  (encodeX_and_mask _ _ _ _ _).trans (show encodeX 0 0 0 407 false = (0x7C00032E : Word) by decide)

theorem Laws.TableRowMatch.sthux (rs ra rb : RegNum) : Statement (.sthux rs ra rb) := 
  (encodeX_and_mask _ _ _ _ _).trans (show encodeX 0 0 0 439 false = (0x7C00036E : Word) by decide)

theorem Laws.TableRowMatch.lfsx (rs ra rb : RegNum) : Statement (.lfsx rs ra rb) := 
  (encodeX_and_mask _ _ _ _ _).trans (show encodeX 0 0 0 535 false = (0x7C00042E : Word) by decide)

theorem Laws.TableRowMatch.lfsux (rs ra rb : RegNum) : Statement (.lfsux rs ra rb) := 
  (encodeX_and_mask _ _ _ _ _).trans (show encodeX 0 0 0 567 false = (0x7C00046E : Word) by decide)

theorem Laws.TableRowMatch.lfdx (rs ra rb : RegNum) : Statement (.lfdx rs ra rb) := 
  (encodeX_and_mask _ _ _ _ _).trans (show encodeX 0 0 0 599 false = (0x7C0004AE : Word) by decide)

theorem Laws.TableRowMatch.lfdux (rs ra rb : RegNum) : Statement (.lfdux rs ra rb) := 
  (encodeX_and_mask _ _ _ _ _).trans (show encodeX 0 0 0 631 false = (0x7C0004EE : Word) by decide)

theorem Laws.TableRowMatch.stfsx (rs ra rb : RegNum) : Statement (.stfsx rs ra rb) := 
  (encodeX_and_mask _ _ _ _ _).trans (show encodeX 0 0 0 663 false = (0x7C00052E : Word) by decide)

theorem Laws.TableRowMatch.stfsux (rs ra rb : RegNum) : Statement (.stfsux rs ra rb) := 
  (encodeX_and_mask _ _ _ _ _).trans (show encodeX 0 0 0 695 false = (0x7C00056E : Word) by decide)

theorem Laws.TableRowMatch.stfdx (rs ra rb : RegNum) : Statement (.stfdx rs ra rb) := 
  (encodeX_and_mask _ _ _ _ _).trans (show encodeX 0 0 0 727 false = (0x7C0005AE : Word) by decide)

theorem Laws.TableRowMatch.stfdux (rs ra rb : RegNum) : Statement (.stfdux rs ra rb) := 
  (encodeX_and_mask _ _ _ _ _).trans (show encodeX 0 0 0 759 false = (0x7C0005EE : Word) by decide)

theorem Laws.TableRowMatch.tw (rs ra rb : RegNum) : Statement (.tw rs ra rb) := 
  (encodeX_and_mask _ _ _ _ _).trans (show encodeX 0 0 0 4 false = (0x7C000008 : Word) by decide)

theorem Laws.TableRowMatch.dcl (code : Word) : Statement (.dcl code) := by
  simp [Statement, encode, tableRow]

end Sys2Proof
end

