-- ==== Sys2Proof/Laws/SignExtend.lean ====
section
/-! SUPPORT. What the sign-extension logic does to each bit, and the two ways a branch word's displacement is written
(R34, R50, R51). -/

namespace Sys2Proof.Machine

/-- With bit `p` clear the value is unchanged (R51). -/
theorem signExtend_of_clear {v : Word} {p : Fin 32} (h : v.getLsbD p = false) : signExtend v p = v := by
  simp only [signExtend, h, Bool.false_eq_true, if_false]

/-- With bit `p` set the bits above it are set and the others are unchanged (R50). -/
theorem signExtend_getLsbD_of_set {v : Word} {p : Fin 32} (h : v.getLsbD p = true) {i : Nat} (hi : i < 32) :
    (signExtend v p).getLsbD i = (v.getLsbD i || decide (p.val < i)) := by
  have ones : ∀ k, k < 32 → (0xFFFFFFFF#32).getLsbD k = true := by decide
  rw [signExtend, if_pos h, BitVec.getLsbD_or, BitVec.getLsbD_shiftLeft, ones _ (by omega)]
  congr 1
  by_cases hp : p.val < i
  · simp [hi, hp, show ¬i < p.val + 1 by omega]
  · simp [hp, show i < p.val + 1 by omega]

/-- The displacement of a branch word is that of its 24-bit field (R34). -/
theorem branchDisplacement_eq (code : Word) : branchDisplacement code = displacement (li24Of code) := by
  rw [branchDisplacement, displacement, branch_mask_eq]

end Sys2Proof.Machine
end

