-- ==== Sys2Proof/Tests/Slice0.lean ====
section
/-! SUPPORT. Tests of the model, and the witnesses of the statements' hypotheses. The expected results come from the
spec: 95_test_vectors (parts 1 to 3), the encoding tables of 30_encoding, and the rules named at each test. -/

namespace Sys2Proof.Tests

open Sys2Proof Sys2Proof.Machine

/-- An instance with the cursor at `addr` whose host is about to issue one `Decode`. -/
def presented (code addr : Word) (simplified : Bool) : State :=
  { addr := some addr, out := none, pending := [.decode code simplified], texts := [] }

/-- One step from there gives this text and record, and leaves the cursor at `after`. -/
def shows (code addr : Word) (simplified : Bool) (text : String) (d : Decoded) (after : Word) : Bool :=
  match step (presented code addr simplified) with
  | .next t => t == { addr := some after, out := some d, pending := [], texts := [text] }
  | _ => false

/-- The outcome is this refusal. -/
def refusedWith (r : Refusal) : Host.Outcome State Fault Refusal → Bool
  | .refused r' => r == r'
  | _ => false

/-- The outcome is this next state. -/
def reaches (t : State) : Host.Outcome State Fault Refusal → Bool
  | .next t' => t == t'
  | _ => false

section wellFormed

theorem test_wf_refuses_li_unless_simplified :
    Instr.wf false (.li 3 0x10) = false ∧
    Instr.wf true (.li 3 0x10) = true := by
  decide

theorem test_wf_refuses_addi_of_register_zero_when_simplified :
    Instr.wf true (.addi 3 0 0x10) = false ∧
    Instr.wf false (.addi 3 0 0x10) = true ∧
    Instr.wf true (.addi 3 4 0x10) = true := by
  decide

theorem test_wf_refuses_nop_unless_simplified :
    Instr.wf false (.nop) = false ∧
    Instr.wf true (.nop) = true := by
  decide

theorem test_wf_refuses_mr_of_or_immediate_unless_simplified :
    Instr.wf false (.mrOri 5 5) = false ∧
    Instr.wf true (.mrOri 5 5) = true := by
  decide

theorem test_wf_refuses_mr_of_or_immediate_with_every_field_zero :
    Instr.wf true (.mrOri 0 0) = false ∧
    Instr.wf true (.mrOri 0 3) = true ∧
    Instr.wf true (.mrOri 3 0) = true := by
  decide

theorem test_wf_refuses_ori_of_zero_when_simplified :
    Instr.wf true (.ori 5 4 0) = false ∧
    Instr.wf false (.ori 5 4 0) = true ∧
    Instr.wf true (.ori 0 0 1) = true := by
  decide

theorem test_wf_refuses_mr_of_or_unless_simplified :
    Instr.wf false (.mrOr 7 9 7) = false ∧
    Instr.wf false (.mrOrRc 7 9 7) = false := by
  decide

theorem test_wf_refuses_mr_of_or_with_different_sources :
    Instr.wf true (.mrOr 7 9 8) = false ∧
    Instr.wf true (.mrOrRc 7 9 8) = false ∧
    Instr.wf true (.mrOr 7 9 7) = true := by
  decide

theorem test_wf_refuses_or_with_equal_sources_when_simplified :
    Instr.wf true (.or 7 9 7) = false ∧
    Instr.wf true (.orRc 7 9 7) = false ∧
    Instr.wf false (.or 7 9 7) = true := by
  decide

theorem test_wf_refuses_illegal_word_of_an_accepted_word :
    Instr.wf false (.dcl 0x7C642810) = false ∧
    Instr.wf true (.dcl 0x60000000) = false ∧
    Instr.wf true (.dcl 0x7C6428D0) = true := by
  decide

end wellFormed

section decoding

/-- R31, R80, R81: the primary opcode 14, `rd`, `ra`, the immediate. -/
theorem test_decode_addi_and_li :
    decodeWord 0b001110_00011_00100_0000000000010000#32 true = .addi 3 4 0x10 ∧
    decodeWord 0b001110_00011_00000_0000000000010000#32 true = .li 3 0x10 ∧
    decodeWord 0b001110_00011_00000_0000000000010000#32 false = .addi 3 0 0x10 := by
  decide

/-- R82 to R85. -/
theorem test_decode_ori_and_its_simplified_forms :
    decodeWord 0b011000_00101_00100_0001001000110100#32 true = .ori 5 4 0x1234 ∧
    decodeWord 0b011000_00011_00000_0000000000000000#32 true = .mrOri 3 0 ∧
    decodeWord 0b011000_00000_00000_0000000000000000#32 true = .nop ∧
    decodeWord 0b011000_00011_00000_0000000000000000#32 false = .ori 3 0 0 := by
  decide

/-- R90 to R95: `LI24`, `AA`, `LK`. -/
theorem test_decode_branches :
    decodeWord 0b010010_000000000000000001000001_0_0#32 false = .b 0x41 ∧
    decodeWord 0b010010_000000000000000001000001_0_1#32 true = .bl 0x41 ∧
    decodeWord 0b010010_100000000000000001000001_1_0#32 false = .ba 0x800041 ∧
    decodeWord 0b010010_100000000000000001000001_1_1#32 true = .bla 0x800041 := by
  decide

/-- R111: selector 0x08, index 0; `OE`, `rc`. -/
theorem test_decode_subfc :
    decodeWord 0b011111_00011_00100_00101_0_0000_01000_0#32 true = .subfc 3 4 5 ∧
    decodeWord 0b011111_00011_00100_00101_0_0000_01000_1#32 false = .subfcRc 3 4 5 ∧
    decodeWord 0b011111_00011_00100_00101_1_0000_01000_0#32 false = .subfcOe 3 4 5 ∧
    decodeWord 0b011111_00011_00100_00101_1_0000_01000_1#32 true = .subfcOeRc 3 4 5 := by
  decide

/-- R112: selector 0x08, index 1; `OE`, `rc`. -/
theorem test_decode_subf :
    decodeWord 0b011111_00011_00100_00101_0_0001_01000_0#32 true = .subf 3 4 5 ∧
    decodeWord 0b011111_00011_00100_00101_0_0001_01000_1#32 false = .subfRc 3 4 5 ∧
    decodeWord 0b011111_00011_00100_00101_1_0001_01000_0#32 false = .subfOe 3 4 5 ∧
    decodeWord 0b011111_00011_00100_00101_1_0001_01000_1#32 true = .subfOeRc 3 4 5 := by
  decide

/-- R113: selector 0x08, index 3; `OE`, `rc`. -/
theorem test_decode_neg :
    decodeWord 0b011111_00011_00100_00000_0_0011_01000_0#32 true = .neg 3 4 ∧
    decodeWord 0b011111_00011_00100_00000_0_0011_01000_1#32 false = .negRc 3 4 ∧
    decodeWord 0b011111_00011_00100_00000_1_0011_01000_0#32 false = .negOe 3 4 ∧
    decodeWord 0b011111_00011_00100_00000_1_0011_01000_1#32 true = .negOeRc 3 4 := by
  decide

/-- R114: selector 0x08, index 4; `OE`, `rc`. -/
theorem test_decode_subfe :
    decodeWord 0b011111_00011_00100_00101_0_0100_01000_0#32 true = .subfe 3 4 5 ∧
    decodeWord 0b011111_00011_00100_00101_0_0100_01000_1#32 false = .subfeRc 3 4 5 ∧
    decodeWord 0b011111_00011_00100_00101_1_0100_01000_0#32 false = .subfeOe 3 4 5 ∧
    decodeWord 0b011111_00011_00100_00101_1_0100_01000_1#32 true = .subfeOeRc 3 4 5 := by
  decide

/-- R115: selector 0x08, index 6; `OE`, `rc`. -/
theorem test_decode_subfze :
    decodeWord 0b011111_00011_00100_00000_0_0110_01000_0#32 true = .subfze 3 4 ∧
    decodeWord 0b011111_00011_00100_00000_0_0110_01000_1#32 false = .subfzeRc 3 4 ∧
    decodeWord 0b011111_00011_00100_00000_1_0110_01000_0#32 false = .subfzeOe 3 4 ∧
    decodeWord 0b011111_00011_00100_00000_1_0110_01000_1#32 true = .subfzeOeRc 3 4 := by
  decide

/-- R116: selector 0x08, index 7; `OE`, `rc`. -/
theorem test_decode_subfme :
    decodeWord 0b011111_00011_00100_00000_0_0111_01000_0#32 true = .subfme 3 4 ∧
    decodeWord 0b011111_00011_00100_00000_0_0111_01000_1#32 false = .subfmeRc 3 4 ∧
    decodeWord 0b011111_00011_00100_00000_1_0111_01000_0#32 false = .subfmeOe 3 4 ∧
    decodeWord 0b011111_00011_00100_00000_1_0111_01000_1#32 true = .subfmeOeRc 3 4 := by
  decide

/-- R117: selector 0x08, index 8; `OE`, `rc`. -/
theorem test_decode_doz :
    decodeWord 0b011111_00011_00100_00101_0_1000_01000_0#32 true = .doz 3 4 5 ∧
    decodeWord 0b011111_00011_00100_00101_0_1000_01000_1#32 false = .dozRc 3 4 5 ∧
    decodeWord 0b011111_00011_00100_00101_1_1000_01000_0#32 false = .dozOe 3 4 5 ∧
    decodeWord 0b011111_00011_00100_00101_1_1000_01000_1#32 true = .dozOeRc 3 4 5 := by
  decide

/-- R118: selector 0x08, index 11; `OE`, `rc`. -/
theorem test_decode_abs :
    decodeWord 0b011111_00011_00100_00000_0_1011_01000_0#32 true = .abs 3 4 ∧
    decodeWord 0b011111_00011_00100_00000_0_1011_01000_1#32 false = .absRc 3 4 ∧
    decodeWord 0b011111_00011_00100_00000_1_1011_01000_0#32 false = .absOe 3 4 ∧
    decodeWord 0b011111_00011_00100_00000_1_1011_01000_1#32 true = .absOeRc 3 4 := by
  decide

/-- R119: selector 0x08, index 15; `OE`, `rc`. -/
theorem test_decode_nabs :
    decodeWord 0b011111_00011_00100_00000_0_1111_01000_0#32 true = .nabs 3 4 ∧
    decodeWord 0b011111_00011_00100_00000_0_1111_01000_1#32 false = .nabsRc 3 4 ∧
    decodeWord 0b011111_00011_00100_00000_1_1111_01000_0#32 false = .nabsOe 3 4 ∧
    decodeWord 0b011111_00011_00100_00000_1_1111_01000_1#32 true = .nabsOeRc 3 4 := by
  decide

/-- R131: selector 0x1C, index 0; `rc`. -/
theorem test_decode_and :
    decodeWord 0b011111_00011_00100_00101_00000_11100_0#32 false = .and 3 4 5 ∧
    decodeWord 0b011111_00011_00100_00101_00000_11100_1#32 true = .andRc 3 4 5 := by
  decide

/-- R132: selector 0x1C, index 1; `rc`. -/
theorem test_decode_andc :
    decodeWord 0b011111_00011_00100_00101_00001_11100_0#32 false = .andc 3 4 5 ∧
    decodeWord 0b011111_00011_00100_00101_00001_11100_1#32 true = .andcRc 3 4 5 := by
  decide

/-- R133: selector 0x1C, index 3; `rc`. -/
theorem test_decode_nor :
    decodeWord 0b011111_00011_00100_00101_00011_11100_0#32 false = .nor 3 4 5 ∧
    decodeWord 0b011111_00011_00100_00101_00011_11100_1#32 true = .norRc 3 4 5 := by
  decide

/-- R134: selector 0x1C, index 8; `rc`. -/
theorem test_decode_eqv :
    decodeWord 0b011111_00011_00100_00101_01000_11100_0#32 false = .eqv 3 4 5 ∧
    decodeWord 0b011111_00011_00100_00101_01000_11100_1#32 true = .eqvRc 3 4 5 := by
  decide

/-- R135: selector 0x1C, index 9; `rc`. -/
theorem test_decode_xor :
    decodeWord 0b011111_00011_00100_00101_01001_11100_0#32 false = .xor 3 4 5 ∧
    decodeWord 0b011111_00011_00100_00101_01001_11100_1#32 true = .xorRc 3 4 5 := by
  decide

/-- R136: selector 0x1C, index 12; `rc`. -/
theorem test_decode_orc :
    decodeWord 0b011111_00011_00100_00101_01100_11100_0#32 false = .orc 3 4 5 ∧
    decodeWord 0b011111_00011_00100_00101_01100_11100_1#32 true = .orcRc 3 4 5 := by
  decide

/-- R137: selector 0x1C, index 13; `rc`. -/
theorem test_decode_or :
    decodeWord 0b011111_00011_00100_00101_01101_11100_0#32 false = .or 3 4 5 ∧
    decodeWord 0b011111_00011_00100_00101_01101_11100_1#32 true = .orRc 3 4 5 := by
  decide

/-- R138: selector 0x1C, index 14; `rc`. -/
theorem test_decode_nand :
    decodeWord 0b011111_00011_00100_00101_01110_11100_0#32 false = .nand 3 4 5 ∧
    decodeWord 0b011111_00011_00100_00101_01110_11100_1#32 true = .nandRc 3 4 5 := by
  decide

/-- R139: index 13 with equal sources. -/
theorem test_decode_mr_of_or :
    decodeWord 0b011111_00111_01001_00111_01101_11100_0#32 true = .mrOr 7 9 7 ∧
    decodeWord 0b011111_00111_01001_00111_01101_11100_1#32 true = .mrOrRc 7 9 7 ∧
    decodeWord 0b011111_00111_01001_00111_01101_11100_1#32 false = .orRc 7 9 7 := by
  decide

/-- R151, R152: selector 0x17, indices 0 and 1. -/
theorem test_decode_lwzx_and_lwzux :
    decodeWord 0b011111_00011_00100_00101_00000_10111_0#32 false = .lwzx 3 4 5 ∧
    decodeWord 0b011111_00011_00100_00101_00001_10111_0#32 false = .lwzux 3 4 5 := by
  decide

/-- R153, R154: selector 0x17, indices 2 and 3. -/
theorem test_decode_lbzx_and_lbzux :
    decodeWord 0b011111_00011_00100_00101_00010_10111_0#32 false = .lbzx 3 4 5 ∧
    decodeWord 0b011111_00011_00100_00101_00011_10111_0#32 false = .lbzux 3 4 5 := by
  decide

/-- R155, R156: selector 0x17, indices 4 and 5. -/
theorem test_decode_stwx_and_stwux :
    decodeWord 0b011111_00011_00100_00101_00100_10111_0#32 false = .stwx 3 4 5 ∧
    decodeWord 0b011111_00011_00100_00101_00101_10111_0#32 false = .stwux 3 4 5 := by
  decide

/-- R157, R158: selector 0x17, indices 6 and 7. -/
theorem test_decode_stbx_and_stbux :
    decodeWord 0b011111_00011_00100_00101_00110_10111_0#32 false = .stbx 3 4 5 ∧
    decodeWord 0b011111_00011_00100_00101_00111_10111_0#32 false = .stbux 3 4 5 := by
  decide

/-- R159, R160: selector 0x17, indices 8 and 9. -/
theorem test_decode_lhzx_and_lhzux :
    decodeWord 0b011111_00011_00100_00101_01000_10111_0#32 false = .lhzx 3 4 5 ∧
    decodeWord 0b011111_00011_00100_00101_01001_10111_0#32 false = .lhzux 3 4 5 := by
  decide

/-- R161, R162: selector 0x17, indices 10 and 11. -/
theorem test_decode_lhax_and_lhaux :
    decodeWord 0b011111_00011_00100_00101_01010_10111_0#32 false = .lhax 3 4 5 ∧
    decodeWord 0b011111_00011_00100_00101_01011_10111_0#32 false = .lhaux 3 4 5 := by
  decide

/-- R163, R164: selector 0x17, indices 12 and 13. -/
theorem test_decode_sthx_and_sthux :
    decodeWord 0b011111_00011_00100_00101_01100_10111_0#32 false = .sthx 3 4 5 ∧
    decodeWord 0b011111_00011_00100_00101_01101_10111_0#32 false = .sthux 3 4 5 := by
  decide

/-- R165, R166: selector 0x17, indices 16 and 17. -/
theorem test_decode_lfsx_and_lfsux :
    decodeWord 0b011111_00011_00100_00101_10000_10111_0#32 false = .lfsx 3 4 5 ∧
    decodeWord 0b011111_00011_00100_00101_10001_10111_0#32 false = .lfsux 3 4 5 := by
  decide

/-- R167, R168: selector 0x17, indices 18 and 19. -/
theorem test_decode_lfdx_and_lfdux :
    decodeWord 0b011111_00011_00100_00101_10010_10111_0#32 false = .lfdx 3 4 5 ∧
    decodeWord 0b011111_00011_00100_00101_10011_10111_0#32 false = .lfdux 3 4 5 := by
  decide

/-- R169, R170: selector 0x17, indices 20 and 21. -/
theorem test_decode_stfsx_and_stfsux :
    decodeWord 0b011111_00011_00100_00101_10100_10111_0#32 false = .stfsx 3 4 5 ∧
    decodeWord 0b011111_00011_00100_00101_10101_10111_0#32 false = .stfsux 3 4 5 := by
  decide

/-- R171, R172: selector 0x17, indices 22 and 23. -/
theorem test_decode_stfdx_and_stfdux :
    decodeWord 0b011111_00011_00100_00101_10110_10111_0#32 false = .stfdx 3 4 5 ∧
    decodeWord 0b011111_00011_00100_00101_10111_10111_0#32 false = .stfdux 3 4 5 := by
  decide

/-- R180: extended opcode 4; `rc` must be 0. -/
theorem test_decode_tw :
    decodeWord 0b011111_00100_00011_00101_0000000100_0#32 false = .tw 4 3 5 ∧
    decodeWord 0b011111_00100_00011_00101_0000000100_1#32 false = .dcl 0x7C832809 := by
  decide

/-- 95_test_vectors Program 4; R40. -/
theorem test_decode_one_word_of_each_illegal_cause :
    decodeWord 0x0C000000 true = .dcl 0x0C000000 ∧
    decodeWord 0x7C642890 true = .dcl 0x7C642890 ∧
    decodeWord 0x7C6428D0 true = .dcl 0x7C6428D0 ∧
    decodeWord 0x7C6428B8 true = .dcl 0x7C6428B8 ∧
    decodeWord 0x7C642E2E true = .dcl 0x7C642E2E ∧
    decodeWord 0x7C64282F true = .dcl 0x7C64282F ∧
    decodeWord 0x7C642BAE true = .dcl 0x7C642BAE ∧
    decodeWord 0x7FE00009 true = .dcl 0x7FE00009 ∧
    decodeWord 0x7C642A14 true = .dcl 0x7C642A14 := by
  decide

/-- 95_test_vectors Program 4; R40. -/
theorem test_illegal_cause_of_each_word :
    illegalCause defaultConfig 0x0C000000 true = some .il1 ∧
    illegalCause defaultConfig 0x7C642890 true = some .il2 ∧
    illegalCause defaultConfig 0x7C6428D0 true = some .il3 ∧
    illegalCause defaultConfig 0x7C6428B8 true = some .il4 ∧
    illegalCause defaultConfig 0x7C642E2E true = some .il5 ∧
    illegalCause defaultConfig 0x7C64282F true = some .il6 ∧
    illegalCause defaultConfig 0x7C642BAE true = some .il7 ∧
    illegalCause defaultConfig 0x7FE00009 true = some .il8 ∧
    illegalCause defaultConfig 0x7C642A14 true = some .il9 ∧
    illegalCause defaultConfig 0x7C642810 true = none := by
  decide

/-- R30: an instruction is exactly one 32-bit word. -/
theorem test_truncated_bytes_are_rejected :
    decodeBytes [] true = .error .truncated ∧
    decodeBytes [0x38, 0x60, 0x00] true = .error .truncated := by
  decide

/-- 95_test_vectors Program 1, steps 2 and 8; R22. -/
theorem test_bytes_are_big_endian :
    decodeBytes [0x38, 0x83, 0xFF, 0xFF, 0x60] true = .ok (.addi 4 3 0xFFFF, [0x60]) ∧
    wordOfBytes 0x7D 0x07 0x30 0x2E = 0x7D07302E := by
  decide

/-- 95_test_vectors S3 and S4. -/
theorem test_table_word_decodes :
    decodeTableWord 32 0x38600010 = some (.li 3 0x10) ∧
    decodeTableWord 32 0x7C6428D0 = some (.dcl 0x7C6428D0) := by
  decide

/-- 95_test_vectors 2.6 to 2.10. -/
theorem test_encode_writes_the_words :
    encode (.subfzeOeRc 3 4) = 0x7C640591 ∧
    encode (.lfdx 3 4 5) = 0x7C642CAE ∧
    encode (.bl 0x41) = 0x48000105 ∧
    encode (.tw 31 0 0) = 0x7FE00008 := by
  decide

/-- 95_test_vectors 2.1; R31. -/
theorem test_fields_of_0x7C642C51 :
    opcOf 0x7C642C51 = 31 ∧
    rsOf 0x7C642C51 = 3 ∧
    raOf 0x7C642C51 = 4 ∧
    rbOf 0x7C642C51 = 5 ∧
    immOf 0x7C642C51 = 0x2C51 ∧
    extOpcOf 0x7C642C51 = 552 ∧
    rcOf 0x7C642C51 = true ∧
    selOf 0x7C642C51 = 0x08 ∧
    oeOf 0x7C642C51 = true ∧
    idx4Of 0x7C642C51 = 1 ∧
    idx5Of 0x7C642C51 = 17 ∧
    li24Of 0x7C642C51 = 0x190B14 ∧
    aaOf 0x7C642C51 = false ∧
    lkOf 0x7C642C51 = true := by
  decide

/-- 95_test_vectors 2.1; R31. -/
theorem test_fields_of_0x7FFFFFAE :
    opcOf 0x7FFFFFAE = 31 ∧
    rsOf 0x7FFFFFAE = 31 ∧
    raOf 0x7FFFFFAE = 31 ∧
    rbOf 0x7FFFFFAE = 31 ∧
    immOf 0x7FFFFFAE = 0xFFAE ∧
    extOpcOf 0x7FFFFFAE = 983 ∧
    rcOf 0x7FFFFFAE = false ∧
    selOf 0x7FFFFFAE = 0x17 ∧
    oeOf 0x7FFFFFAE = true ∧
    idx4Of 0x7FFFFFAE = 14 ∧
    idx5Of 0x7FFFFFAE = 30 ∧
    li24Of 0x7FFFFFAE = 0xFFFFEB ∧
    aaOf 0x7FFFFFAE = true ∧
    lkOf 0x7FFFFFAE = false := by
  decide

/-- 95_test_vectors 2.1; R31. -/
theorem test_fields_of_0x80000001 :
    opcOf 0x80000001 = 32 ∧
    rsOf 0x80000001 = 0 ∧
    raOf 0x80000001 = 0 ∧
    rbOf 0x80000001 = 0 ∧
    immOf 0x80000001 = 0x0001 ∧
    extOpcOf 0x80000001 = 0 ∧
    rcOf 0x80000001 = true ∧
    selOf 0x80000001 = 0x00 ∧
    oeOf 0x80000001 = false ∧
    idx4Of 0x80000001 = 0 ∧
    idx5Of 0x80000001 = 0 ∧
    li24Of 0x80000001 = 0x000000 ∧
    aaOf 0x80000001 = false ∧
    lkOf 0x80000001 = true := by
  decide

end decoding

section primitives

/-- 95_test_vectors 2.2; R50, R51. -/
theorem test_sign_extension_table :
    signExtend 0x00000000 25 = 0x00000000 ∧
    signExtend 0x00000004 25 = 0x00000004 ∧
    signExtend 0x01FFFFFC 25 = 0x01FFFFFC ∧
    signExtend 0x02000000 25 = 0xFE000000 ∧
    signExtend 0x03FFFFFC 25 = 0xFFFFFFFC ∧
    signExtend 0x00008000 15 = 0xFFFF8000 ∧
    signExtend 0x00007FFF 15 = 0x00007FFF ∧
    signExtend 0x80000000 31 = 0x80000000 ∧
    signExtend 0x00000001 0 = 0xFFFFFFFF ∧
    signExtend 0x04000004 25 = 0x04000004 ∧
    signExtend 0x06000000 25 = 0xFE000000 := by
  decide

/-- 95_test_vectors 2.3; R55, R56. -/
theorem test_hexadecimal_numerals :
    hex4 0x0000 = "0000" ∧
    hex4 0x00FF = "00FF" ∧
    hex4 0xABCD = "ABCD" ∧
    hex8 0x00000000 = "00000000" ∧
    hex8 0xDEADBEEF = "DEADBEEF" := by
  decide

/-- 95_test_vectors 2.3; R57. -/
theorem test_decimal_numerals :
    dec 0 = "0" ∧
    dec 9 = "9" ∧
    dec 10 = "10" ∧
    dec 31 = "31" := by
  decide

/-- 95_test_vectors 2.3; R57. -/
theorem test_mnemonic_column :
    pad8 "b" = "b       " ∧
    pad8 "dc.l" = "dc.l    " ∧
    pad8 "subfco." = "subfco. " ∧
    pad8 "subfzeo." = "subfzeo." := by
  decide

/-- 95_test_vectors 2.3; R58, R59. -/
theorem test_rendering :
    render ⟨false, "nop", []⟩ = "nop" ∧
    render ⟨false, "tw", [.trapOn 4, .gpr 3, .gpr 5]⟩ = "tw      4, r3, r5" ∧
    render ⟨false, "lfdx", [.fpr 10, .gpr 0, .gpr 31]⟩ = "lfdx    fp10, r0, r31" := by
  decide

/-- R65: "dc.l" is 64 63 2E 6C in ASCII. -/
theorem test_packing_of_an_illegal_record :
    pack (illegalRecord 0x7C6428D0) = ⟨true, 0x64632E6C00000000, 1, ⟨4, 0x7C6428D0⟩, ⟨0, 0⟩, ⟨0, 0⟩⟩ := by
  decide

/-- 95_test_vectors 2.12; R71. -/
theorem test_dispatch_has_four_handlers :
    (dispatchRom defaultConfig).length = 64 ∧
    (dispatchRom defaultConfig).countP (fun h => h != .illegal) = 4 := by
  decide

/-- R6. -/
theorem test_default_parameters_are_legal :
    configOk defaultConfig = true ∧
    configOk { defaultConfig with opcB := 24 } = false := by
  decide

end primitives

section steps

/-- same word, not simplified: addi with r0. -/
theorem test_step_addi_0x38600010 :
    shows 0x38600010 0x00001000 false "addi    r3, r0, 0x0010"
      ⟨false, "addi", [.gpr 3, .gpr 0, .imm16 0x0010]⟩ 0x00001004 = true := by
  decide

/-- rd = ra; cursor wraps to 0. -/
theorem test_step_addi_0x3821FFF0 :
    shows 0x3821FFF0 0xFFFFFFFC true "addi    r1, r1, 0xFFF0"
      ⟨false, "addi", [.gpr 1, .gpr 1, .imm16 0xFFF0]⟩ 0x00000000 = true := by
  decide

/-- ra = 0, simplified: li (the document's scenario). -/
theorem test_step_li_0x38600010 :
    shows 0x38600010 0x00001000 true "li      r3, 0x0010"
      ⟨false, "li", [.gpr 3, .imm16 0x0010]⟩ 0x00001004 = true := by
  decide

/-- two-digit register; sign bit of the immediate set, still raw. -/
theorem test_step_li_0x39408000 :
    shows 0x39408000 0x00001000 true "li      r10, 0x8000"
      ⟨false, "li", [.gpr 10, .imm16 0x8000]⟩ 0x00001004 = true := by
  decide

/-- the document's nop scenario. -/
theorem test_step_nop_0x60000000 :
    shows 0x60000000 0x00001000 true "nop"
      ⟨false, "nop", []⟩ 0x00001004 = true := by
  decide

/-- same word, not simplified. -/
theorem test_step_ori_0x60000000 :
    shows 0x60000000 0x00001000 false "ori     r0, r0, 0x0000"
      ⟨false, "ori", [.gpr 0, .gpr 0, .imm16 0x0000]⟩ 0x00001004 = true := by
  decide

/-- hex letters upper case. -/
theorem test_step_ori_0x63FEABCD :
    shows 0x63FEABCD 0x00001000 false "ori     r31, r30, 0xABCD"
      ⟨false, "ori", [.gpr 31, .gpr 30, .imm16 0xABCD]⟩ 0x00001004 = true := by
  decide

/-- rs = 3, ra = 0: mr prints ra first. -/
theorem test_step_mr_0x60600000 :
    shows 0x60600000 0x00001000 true "mr      r0, r3"
      ⟨false, "mr", [.gpr 0, .gpr 3]⟩ 0x00001004 = true := by
  decide

/-- the document's scenario: index 13, rs = rb, simplified, rc = 0. -/
theorem test_step_mr_0x7CE93B78 :
    shows 0x7CE93B78 0x00001000 true "mr      r9, r7"
      ⟨false, "mr", [.gpr 9, .gpr 7]⟩ 0x00001004 = true := by
  decide

/-- the document's bl scenario: displacement 0 gives the branch's own address. -/
theorem test_step_bl_0x48000001 :
    shows 0x48000001 0x00001000 true "bl      0x00001000"
      ⟨false, "bl", [.addr32 0x00001000]⟩ 0x00001004 = true := by
  decide

/-- bl +0x104. -/
theorem test_step_bl_0x48000105 :
    shows 0x48000105 0x00002000 true "bl      0x00002104"
      ⟨false, "bl", [.addr32 0x00002104]⟩ 0x00002004 = true := by
  decide

/-- backward below 0 wraps. -/
theorem test_step_b_0x4BFFFFFC :
    shows 0x4BFFFFFC 0x00000000 false "b       0xFFFFFFFC"
      ⟨false, "b", [.addr32 0xFFFFFFFC]⟩ 0x00000004 = true := by
  decide

/-- forward past the top wraps. -/
theorem test_step_b_0x49FFFFFC :
    shows 0x49FFFFFC 0xFFFFFFF0 false "b       0x01FFFFEC"
      ⟨false, "b", [.addr32 0x01FFFFEC]⟩ 0xFFFFFFF4 = true := by
  decide

/-- ba: same text at another address. -/
theorem test_step_ba_0x48001002 :
    shows 0x48001002 0xDEADBEEC false "ba      0x00001000"
      ⟨false, "ba", [.addr32 0x00001000]⟩ 0xDEADBEF0 = true := by
  decide

/-- ba with negative displacement. -/
theorem test_step_ba_0x4BFFFFFE :
    shows 0x4BFFFFFE 0x00001000 false "ba      0xFFFFFFFC"
      ⟨false, "ba", [.addr32 0xFFFFFFFC]⟩ 0x00001004 = true := by
  decide

/-- bla, most negative displacement. -/
theorem test_step_bla_0x4A000003 :
    shows 0x4A000003 0x00001000 false "bla     0xFE000000"
      ⟨false, "bla", [.addr32 0xFE000000]⟩ 0x00001004 = true := by
  decide

/-- bla to 0. -/
theorem test_step_bla_0x48000003 :
    shows 0x48000003 0x00001000 true "bla     0x00000000"
      ⟨false, "bla", [.addr32 0x00000000]⟩ 0x00001004 = true := by
  decide

/-- subfc, index 0. -/
theorem test_step_subfc_0x7C642810 :
    shows 0x7C642810 0x00001000 false "subfc   r3, r4, r5"
      ⟨false, "subfc", [.gpr 3, .gpr 4, .gpr 5]⟩ 0x00001004 = true := by
  decide

/-- subf, index 1. -/
theorem test_step_subf_0x7C642850 :
    shows 0x7C642850 0x00001000 false "subf    r3, r4, r5"
      ⟨false, "subf", [.gpr 3, .gpr 4, .gpr 5]⟩ 0x00001004 = true := by
  decide

/-- rc = 1: .. -/
theorem test_step_subf_rc_0x7C642851 :
    shows 0x7C642851 0x00001000 false "subf.   r3, r4, r5"
      ⟨false, "subf.", [.gpr 3, .gpr 4, .gpr 5]⟩ 0x00001004 = true := by
  decide

/-- OE = 1: o. -/
theorem test_step_subfo_0x7C642C50 :
    shows 0x7C642C50 0x00001000 false "subfo   r3, r4, r5"
      ⟨false, "subfo", [.gpr 3, .gpr 4, .gpr 5]⟩ 0x00001004 = true := by
  decide

/-- both: o then .; simplified has no effect. -/
theorem test_step_subfo_rc_0x7C642C51 :
    shows 0x7C642C51 0x00001000 true "subfo.  r3, r4, r5"
      ⟨false, "subfo.", [.gpr 3, .gpr 4, .gpr 5]⟩ 0x00001004 = true := by
  decide

/-- neg, two-operand, rb = 0. -/
theorem test_step_neg_0x7C6400D0 :
    shows 0x7C6400D0 0x00001000 false "neg     r3, r4"
      ⟨false, "neg", [.gpr 3, .gpr 4]⟩ 0x00001004 = true := by
  decide

/-- the document's scenario: index 3, rb != 0, illegal (IL3). -/
theorem test_step_illegal_0x7C6428D0 :
    shows 0x7C6428D0 0x00001000 true "dc.l    0x7C6428D0"
      ⟨true, "dc.l", [.raw32 0x7C6428D0]⟩ 0x00001004 = true := by
  decide

/-- opc = 55; hex letters upper case; cursor wraps. -/
theorem test_step_illegal_0xDEADBEEF :
    shows 0xDEADBEEF 0xFFFFFFFC true "dc.l    0xDEADBEEF"
      ⟨true, "dc.l", [.raw32 0xDEADBEEF]⟩ 0x00000000 = true := by
  decide

/-- nego.. -/
theorem test_step_nego_rc_0x7C6404D1 :
    shows 0x7C6404D1 0x00001000 false "nego.   r3, r4"
      ⟨false, "nego.", [.gpr 3, .gpr 4]⟩ 0x00001004 = true := by
  decide

/-- subfe, index 4. -/
theorem test_step_subfe_0x7C642910 :
    shows 0x7C642910 0x00001000 false "subfe   r3, r4, r5"
      ⟨false, "subfe", [.gpr 3, .gpr 4, .gpr 5]⟩ 0x00001004 = true := by
  decide

/-- subfze, index 6. -/
theorem test_step_subfze_0x7C640190 :
    shows 0x7C640190 0x00001000 false "subfze  r3, r4"
      ⟨false, "subfze", [.gpr 3, .gpr 4]⟩ 0x00001004 = true := by
  decide

/-- 8-character mnemonic: no space before the operands. -/
theorem test_step_subfzeo_rc_0x7C640591 :
    shows 0x7C640591 0x00001000 false "subfzeo.r3, r4"
      ⟨false, "subfzeo.", [.gpr 3, .gpr 4]⟩ 0x00001004 = true := by
  decide

/-- the other 8-character mnemonic. -/
theorem test_step_subfmeo_rc_0x7C6405D1 :
    shows 0x7C6405D1 0x00001000 false "subfmeo.r3, r4"
      ⟨false, "subfmeo.", [.gpr 3, .gpr 4]⟩ 0x00001004 = true := by
  decide

/-- 7 characters: one space. -/
theorem test_step_subfmeo_0x7C6405D0 :
    shows 0x7C6405D0 0x00001000 false "subfmeo r3, r4"
      ⟨false, "subfmeo", [.gpr 3, .gpr 4]⟩ 0x00001004 = true := by
  decide

/-- doz, index 8, three-operand. -/
theorem test_step_doz_0x7C642A10 :
    shows 0x7C642A10 0x00001000 false "doz     r3, r4, r5"
      ⟨false, "doz", [.gpr 3, .gpr 4, .gpr 5]⟩ 0x00001004 = true := by
  decide

/-- abs, index 11. -/
theorem test_step_abs_0x7C6402D0 :
    shows 0x7C6402D0 0x00001000 false "abs     r3, r4"
      ⟨false, "abs", [.gpr 3, .gpr 4]⟩ 0x00001004 = true := by
  decide

/-- nabs, index 15. -/
theorem test_step_nabs_0x7C6403D0 :
    shows 0x7C6403D0 0x00001000 false "nabs    r3, r4"
      ⟨false, "nabs", [.gpr 3, .gpr 4]⟩ 0x00001004 = true := by
  decide

/-- all specifiers 31. -/
theorem test_step_subfco_rc_0x7FFFFC11 :
    shows 0x7FFFFC11 0x00001000 false "subfco. r31, r31, r31"
      ⟨false, "subfco.", [.gpr 31, .gpr 31, .gpr 31]⟩ 0x00001004 = true := by
  decide

/-- and, index 0: ra printed first. -/
theorem test_step_and_0x7C642838 :
    shows 0x7C642838 0x00001000 false "and     r4, r3, r5"
      ⟨false, "and", [.gpr 4, .gpr 3, .gpr 5]⟩ 0x00001004 = true := by
  decide

/-- and.. -/
theorem test_step_and_rc_0x7C642839 :
    shows 0x7C642839 0x00001000 false "and.    r4, r3, r5"
      ⟨false, "and.", [.gpr 4, .gpr 3, .gpr 5]⟩ 0x00001004 = true := by
  decide

/-- andc. -/
theorem test_step_andc_0x7C642878 :
    shows 0x7C642878 0x00001000 false "andc    r4, r3, r5"
      ⟨false, "andc", [.gpr 4, .gpr 3, .gpr 5]⟩ 0x00001004 = true := by
  decide

/-- nor. -/
theorem test_step_nor_0x7C6428F8 :
    shows 0x7C6428F8 0x00001000 false "nor     r4, r3, r5"
      ⟨false, "nor", [.gpr 4, .gpr 3, .gpr 5]⟩ 0x00001004 = true := by
  decide

/-- eqv. -/
theorem test_step_eqv_0x7C642A38 :
    shows 0x7C642A38 0x00001000 false "eqv     r4, r3, r5"
      ⟨false, "eqv", [.gpr 4, .gpr 3, .gpr 5]⟩ 0x00001004 = true := by
  decide

/-- xor. -/
theorem test_step_xor_0x7C642A78 :
    shows 0x7C642A78 0x00001000 false "xor     r4, r3, r5"
      ⟨false, "xor", [.gpr 4, .gpr 3, .gpr 5]⟩ 0x00001004 = true := by
  decide

/-- orc. -/
theorem test_step_orc_0x7C642B38 :
    shows 0x7C642B38 0x00001000 false "orc     r4, r3, r5"
      ⟨false, "orc", [.gpr 4, .gpr 3, .gpr 5]⟩ 0x00001004 = true := by
  decide

/-- or, rs != rb: or even when simplified. -/
theorem test_step_or_0x7C642B78 :
    shows 0x7C642B78 0x00001000 true "or      r4, r3, r5"
      ⟨false, "or", [.gpr 4, .gpr 3, .gpr 5]⟩ 0x00001004 = true := by
  decide

/-- or.. -/
theorem test_step_or_rc_0x7C642B79 :
    shows 0x7C642B79 0x00001000 true "or.     r4, r3, r5"
      ⟨false, "or.", [.gpr 4, .gpr 3, .gpr 5]⟩ 0x00001004 = true := by
  decide

/-- nand. -/
theorem test_step_nand_0x7C642BB8 :
    shows 0x7C642BB8 0x00001000 false "nand    r4, r3, r5"
      ⟨false, "nand", [.gpr 4, .gpr 3, .gpr 5]⟩ 0x00001004 = true := by
  decide

/-- mr.. -/
theorem test_step_mr_rc_0x7CE93B79 :
    shows 0x7CE93B79 0x00001000 true "mr.     r9, r7"
      ⟨false, "mr.", [.gpr 9, .gpr 7]⟩ 0x00001004 = true := by
  decide

/-- lwzx, index 0. -/
theorem test_step_lwzx_0x7C64282E :
    shows 0x7C64282E 0x00001000 false "lwzx    r3, r4, r5"
      ⟨false, "lwzx", [.gpr 3, .gpr 4, .gpr 5]⟩ 0x00001004 = true := by
  decide

/-- lwzux. -/
theorem test_step_lwzux_0x7C64286E :
    shows 0x7C64286E 0x00001000 true "lwzux   r3, r4, r5"
      ⟨false, "lwzux", [.gpr 3, .gpr 4, .gpr 5]⟩ 0x00001004 = true := by
  decide

/-- rs = ra in an update form: accepted. -/
theorem test_step_lwzux_0x7C84286E :
    shows 0x7C84286E 0x00001000 false "lwzux   r4, r4, r5"
      ⟨false, "lwzux", [.gpr 4, .gpr 4, .gpr 5]⟩ 0x00001004 = true := by
  decide

/-- lbzx. -/
theorem test_step_lbzx_0x7C6428AE :
    shows 0x7C6428AE 0x00001000 false "lbzx    r3, r4, r5"
      ⟨false, "lbzx", [.gpr 3, .gpr 4, .gpr 5]⟩ 0x00001004 = true := by
  decide

/-- stwx. -/
theorem test_step_stwx_0x7C64292E :
    shows 0x7C64292E 0x00001000 false "stwx    r3, r4, r5"
      ⟨false, "stwx", [.gpr 3, .gpr 4, .gpr 5]⟩ 0x00001004 = true := by
  decide

/-- stwux. -/
theorem test_step_stwux_0x7C64296E :
    shows 0x7C64296E 0x00001000 false "stwux   r3, r4, r5"
      ⟨false, "stwux", [.gpr 3, .gpr 4, .gpr 5]⟩ 0x00001004 = true := by
  decide

/-- lhzx. -/
theorem test_step_lhzx_0x7C642A2E :
    shows 0x7C642A2E 0x00001000 false "lhzx    r3, r4, r5"
      ⟨false, "lhzx", [.gpr 3, .gpr 4, .gpr 5]⟩ 0x00001004 = true := by
  decide

/-- lhax. -/
theorem test_step_lhax_0x7C642AAE :
    shows 0x7C642AAE 0x00001000 false "lhax    r3, r4, r5"
      ⟨false, "lhax", [.gpr 3, .gpr 4, .gpr 5]⟩ 0x00001004 = true := by
  decide

/-- sthux, index 13, last integer entry. -/
theorem test_step_sthux_0x7C642B6E :
    shows 0x7C642B6E 0x00001000 false "sthux   r3, r4, r5"
      ⟨false, "sthux", [.gpr 3, .gpr 4, .gpr 5]⟩ 0x00001004 = true := by
  decide

/-- lfsx, index 16: first operand is fp. -/
theorem test_step_lfsx_0x7C642C2E :
    shows 0x7C642C2E 0x00001000 false "lfsx    fp3, r4, r5"
      ⟨false, "lfsx", [.fpr 3, .gpr 4, .gpr 5]⟩ 0x00001004 = true := by
  decide

/-- lfdx. -/
theorem test_step_lfdx_0x7C642CAE :
    shows 0x7C642CAE 0x00001000 false "lfdx    fp3, r4, r5"
      ⟨false, "lfdx", [.fpr 3, .gpr 4, .gpr 5]⟩ 0x00001004 = true := by
  decide

/-- stfsx: a store, same fp form. -/
theorem test_step_stfsx_0x7C642D2E :
    shows 0x7C642D2E 0x00001000 false "stfsx   fp3, r4, r5"
      ⟨false, "stfsx", [.fpr 3, .gpr 4, .gpr 5]⟩ 0x00001004 = true := by
  decide

/-- stfdux, index 23, longest extended-group text (22). -/
theorem test_step_stfdux_0x7FFFFDEE :
    shows 0x7FFFFDEE 0x00001000 false "stfdux  fp31, r31, r31"
      ⟨false, "stfdux", [.fpr 31, .gpr 31, .gpr 31]⟩ 0x00001004 = true := by
  decide

/-- tw; condition printed as a bare number. -/
theorem test_step_tw_0x7C832808 :
    shows 0x7C832808 0x00001000 false "tw      4, r3, r5"
      ⟨false, "tw", [.trapOn 4, .gpr 3, .gpr 5]⟩ 0x00001004 = true := by
  decide

/-- condition 31. -/
theorem test_step_tw_0x7FE00008 :
    shows 0x7FE00008 0x00001000 true "tw      31, r0, r0"
      ⟨false, "tw", [.trapOn 31, .gpr 0, .gpr 0]⟩ 0x00001004 = true := by
  decide

/-- 95_test_vectors Program 5, step 1: a `Decode` before any `LoadAddr`. -/
theorem test_step_refuses_decode_while_addr_unwritten :
    refusedWith .addrUnwritten (step { State.reset with pending := [.decode 0x60000000 true] }) = true := by
  decide

/-- 95_test_vectors Program 5, step 8: an unaligned address is accepted, and `OUT` is unchanged. -/
theorem test_step_load_addr_unaligned :
    reaches { addr := some 0x2001, out := some ⟨false, "bla", [.addr32 0x104]⟩, pending := [], texts := [] }
      (step { addr := some 0x2008, out := some ⟨false, "bla", [.addr32 0x104]⟩, pending := [.loadAddr 0x2001],
              texts := [] }) = true := by
  decide

/-- R220: nothing is written at reset, so nothing can be read. -/
theorem test_reset_reads_nothing :
    State.reset.addr = none ∧ State.reset.out = none ∧ readAddr State.reset = .error .addrUnwritten ∧
      readOut State.reset = .error .outUnwritten := by
  decide

/-- The word placed for the next fetch after reset runs, with the cursor at 0 (logs 9 and 10). -/
theorem test_fetch_word_after_reset_runs :
    reaches { addr := some 4, out := some ⟨false, "li", [.gpr 3, .imm16 0x10]⟩, pending := [],
              texts := ["li      r3, 0x0010"] } (step (State.reset.withFetchWord 32 0x38600010)) = true := by
  decide

end steps

/-! The witnesses: for each statement with hypotheses, concrete values that meet them together, at the boundaries of the
clauses where there are several. -/

section witnesses

/-- A state between two decodes: the record of `nop` is in `OUT` and its text has been returned. -/
def between (actions : List HostAction) : State :=
  { addr := some 0x1004, out := some ⟨false, "nop", []⟩, pending := actions, texts := ["nop"] }

theorem between_inv (actions : List HostAction) : (between actions).Inv := by
  refine ⟨by simp [between], ?_, rfl, ?_⟩
  · intro d hd
    cases hd
    decide
  · intro t ht
    rw [List.mem_singleton.1 ht]
    decide

theorem witness_EveryStepKeepsTheStateInvariant :
    (between [.decode 0x60A50000 true]).Inv ∧
      step (between [.decode 0x60A50000 true]) =
        .next { addr := some 0x1008, out := some ⟨false, "mr", [.gpr 5, .gpr 5]⟩, pending := [],
                texts := ["nop", "mr      r5, r5"] } :=
  ⟨between_inv _, rfl⟩

theorem witness_DecodeIsRefusedExactlyWhileAddrIsUnwritten :
    step { State.reset with pending := [.decode 0xFFFFFFFF false] } = .refused .addrUnwritten ∧
      State.reset.addr = none :=
  ⟨rfl, rfl⟩

theorem witness_LoadAddrWritesTheCursorAndNothingElse :
    (between [.loadAddr 0xFFFFFFFF]).pending = .loadAddr 0xFFFFFFFF :: [] := rfl

theorem witness_StepWithNoActionHoldsTheState : (between []).pending = [] := rfl

theorem witness_StepRunsTheDecodedInstruction :
    (between [.decode 0x7C832808 false]).pending = .decode 0x7C832808 false :: [] ∧
      decodeWord 0x7C832808 false = .tw 4 3 5 ∧ decodeWord 0x7C832809 true = .dcl 0x7C832809 := by
  decide

theorem witness_FetchWordRunsAsTheNextInstruction : 0 < 2 ^ 32 ∧ 0xFFFFFFFF < 2 ^ 32 := by
  decide

theorem witness_DecodingInvertsEncodingOnWellFormedInstructions :
    Instr.wf true (.mrOri 0 31) = true ∧ Instr.wf false (.addi 31 0 0xFFFF) = true ∧
      Instr.wf false (.bla 0xFFFFFF) = true ∧ Instr.wf true (.nabsOeRc 31 31) = true ∧
      Instr.wf true (.mrOrRc 31 0 31) = true ∧ Instr.wf false (.stfdux 31 31 31) = true ∧
      Instr.wf true (.tw 31 31 31) = true ∧ Instr.wf false (.dcl 0xFFFFFFFF) = true := by
  decide

theorem witness_DecodedInstructionHasTheWinningTableRow :
    (tableRow (.mrOri 0 0)).hits 0x60000000 true = true ∧ (tableRow (.ori 0 0 0)).hits 0x60000000 true = true ∧
      (tableRow (.orRc 0 0 0)).hits 0x7CE93B79 true = true ∧ (tableRow (.dcl 0)).hits 0x7CE93B79 true = true := by
  decide

theorem witness_BytesOfAWordAreBigEndian :
    ([] : List Byte).length < 4 ∧ ([0x38, 0x60, 0x00] : List Byte).length < 4 := by
  decide

/-- The one hypothesis of every statement of delivery: `ADDR` is written; at the top of the address space. -/
theorem witness_Delivers : (presented 0x38600010 0xFFFFFFFF true).addr = some 0xFFFFFFFF := rfl

/-- Legal parameters other than the default ones: other opcodes and another load/store entry. -/
def otherConfig : Config :=
  { defaultConfig with opcAddi := 0, opcB := 63, ldstRom := defaultLdstRom.set 15 (some "lwax") }

theorem witness_configOk : configOk defaultConfig = true ∧ configOk otherConfig = true := by
  decide

theorem witness_DispatchRomNamesAHandlerForEveryOpcode :
    (0 : BitVec 6) ≠ defaultConfig.opcAddi ∧ (0 : BitVec 6) ≠ 24 ∧ (0 : BitVec 6) ≠ defaultConfig.opcB ∧
      (0 : BitVec 6) ≠ 31 ∧ (62 : BitVec 6) ≠ otherConfig.opcAddi ∧ (62 : BitVec 6) ≠ otherConfig.opcB := by
  decide

theorem witness_DecodeIsTotalWithNonEmptyText :
    (between [.decode 0xFFFFFFFF true]).addr = some 0x1004 ∧
      (between [.decode 0xFFFFFFFF true]).pending = .decode 0xFFFFFFFF true :: [] ∧
      blockStep otherConfig { State.reset with pending := [.decode 0 false] } = .refused .addrUnwritten :=
  ⟨rfl, rfl, rfl⟩

theorem witness_IllegalOutcomesAreExactlyTheNineConditions :
    (decodeRecord defaultConfig 0x0C000000 0x1004 true).illegal = true ∧
      (decodeRecord defaultConfig 0x7C642890 0x1004 true).illegal = true ∧
      (decodeRecord defaultConfig 0x7C6428D0 0x1004 true).illegal = true ∧
      (decodeRecord defaultConfig 0x7C6428B8 0x1004 true).illegal = true ∧
      (decodeRecord defaultConfig 0x7C642E2E 0x1004 true).illegal = true ∧
      (decodeRecord defaultConfig 0x7C64282F 0x1004 true).illegal = true ∧
      (decodeRecord defaultConfig 0x7C642BAE 0x1004 true).illegal = true ∧
      (decodeRecord defaultConfig 0x7FE00009 0x1004 true).illegal = true ∧
      (decodeRecord defaultConfig 0x7C642A14 0x1004 true).illegal = true ∧
      (decodeRecord defaultConfig 0x7C642810 0x1004 true).illegal = false ∧
      (between [.decode 0x7C642A14 true]).addr = some 0x1004 := by
  decide

theorem witness_EveryRecordIsWellFormed :
    decodeRecord defaultConfig 0x7C6428D0 0 false = ⟨true, "dc.l", [.raw32 0x7C6428D0]⟩ := by
  decide

theorem witness_MoveFromOrImmediatePrintsRaFirst :
    opcOf 0x60600000 = 24 ∧ immOf 0x60600000 = 0 ∧ ¬(rsOf 0x60600000 = 0 ∧ raOf 0x60600000 = 0) ∧
      opcOf 0x60030000 = 24 ∧ immOf 0x60030000 = 0 ∧ ¬(rsOf 0x60030000 = 0 ∧ raOf 0x60030000 = 0) ∧
      opcOf 0x7C601B78 = 31 ∧ extOpcOf 0x7C601B78 = 444 ∧ rcOf 0x7C601B78 = false ∧
      rsOf 0x7C601B78 = rbOf 0x7C601B78 ∧ raOf 0x7C601B78 = raOf 0x60600000 ∧
      rsOf 0x7C601B78 = rsOf 0x60600000 := by
  decide

theorem witness_OrImmediateArmsPartitionItsWords :
    opcOf 0x60000000 = 24 ∧ opcOf 0x63FFFFFF = 24 := by
  decide

theorem witness_AddImmediateReadsAsLiOrAddi :
    opcOf 0x38600010 = defaultConfig.opcAddi ∧ raOf 0x38600010 = 0 ∧
      opcOf 0x3BFFFFFF = defaultConfig.opcAddi ∧ raOf 0x3BFFFFFF ≠ 0 ∧
      opcOf 0x00010000 = otherConfig.opcAddi ∧ raOf 0x00010000 ≠ 0 := by
  decide

theorem witness_BranchTargetIsCursorPlusSignExtendedField :
    opcOf 0x4A000000 = defaultConfig.opcB ∧ aaOf 0x4A000000 = false ∧
      opcOf 0x4BFFFFFE = defaultConfig.opcB ∧ aaOf 0x4BFFFFFE = true := by
  decide

/-- Each clause at an end of its range; index 15 of the load/store family needs an entry there. -/
theorem witness_SubtractAndLoadStoreRecordsFollowTheirRoms :
    (opcOf 0x7C642810 = 31 ∧ selOf 0x7C642810 = 0x08 ∧
      rom defaultConfig.subRom (idx4Of 0x7C642810).toNat = some "subfc" ∧
      (idx4Of 0x7C642810).toNat ∉ [3, 6, 7, 11, 15]) ∧
    (opcOf 0x7C6403D0 = 31 ∧ selOf 0x7C6403D0 = 0x08 ∧
      rom defaultConfig.subRom (idx4Of 0x7C6403D0).toNat = some "nabs" ∧
      (idx4Of 0x7C6403D0).toNat ∈ [3, 6, 7, 11, 15] ∧ rbOf 0x7C6403D0 = 0) ∧
    (opcOf 0x7C642BEE = 31 ∧ selOf 0x7C642BEE = 0x17 ∧ rcOf 0x7C642BEE = false ∧
      rom otherConfig.ldstRom (idx5Of 0x7C642BEE).toNat = some "lwax" ∧ (idx5Of 0x7C642BEE).toNat ≤ 15) ∧
    (opcOf 0x7C642C2E = 31 ∧ selOf 0x7C642C2E = 0x17 ∧ rcOf 0x7C642C2E = false ∧
      rom defaultConfig.ldstRom (idx5Of 0x7C642C2E).toNat = some "lfsx" ∧ 16 ≤ (idx5Of 0x7C642C2E).toNat ∧
      (idx5Of 0x7C642C2E).toNat ≤ 23) ∧
    (opcOf 0x7FFFFDEE = 31 ∧ selOf 0x7FFFFDEE = 0x17 ∧ rcOf 0x7FFFFDEE = false ∧
      rom defaultConfig.ldstRom (idx5Of 0x7FFFFDEE).toNat = some "stfdux" ∧ 16 ≤ (idx5Of 0x7FFFFDEE).toNat ∧
      (idx5Of 0x7FFFFDEE).toNat ≤ 23) := by
  decide

/-- The move-register case; index 13 outside it; an empty index; index 16, the first beyond the entries; and a ROM that
ends before index 16. -/
theorem witness_LogicalFamilyFollowsItsRom :
    (opcOf 0x7CE93B78 = 31 ∧ selOf 0x7CE93B78 = 0x1C ∧ idx5Of 0x7CE93B78 = 13 ∧
      rsOf 0x7CE93B78 = rbOf 0x7CE93B78) ∧
    (opcOf 0x7C642B78 = 31 ∧ selOf 0x7C642B78 = 0x1C ∧
      ¬(idx5Of 0x7C642B78 = 13 ∧ rsOf 0x7C642B78 = rbOf 0x7C642B78 ∧ true = true) ∧
      rom defaultConfig.logicRom (idx5Of 0x7C642B78).toNat = some "or") ∧
    (opcOf 0x7C6428B8 = 31 ∧ selOf 0x7C6428B8 = 0x1C ∧
      rom defaultConfig.logicRom (idx5Of 0x7C6428B8).toNat = none) ∧
    (opcOf 0x7C642C38 = 31 ∧ selOf 0x7C642C38 = 0x1C ∧ 16 ≤ (idx5Of 0x7C642C38).toNat ∧
      ({ defaultConfig with logicRom := defaultLogicRom.take 16 } : Config).logicRom.length ≤
        (idx5Of 0x7C642C38).toNat) ∧
    configOk { defaultConfig with logicRom := defaultLogicRom.take 16 } = true := by
  decide

theorem witness_OrReadsAsMoveOnlyWithEqualSources :
    (opcOf 0x7CE93B78 = 31 ∧ extOpcOf 0x7CE93B78 = 444 ∧ rcOf 0x7CE93B78 = false ∧
      rsOf 0x7CE93B78 = rbOf 0x7CE93B78) ∧
    (opcOf 0x7C642B79 = 31 ∧ extOpcOf 0x7C642B79 = 444 ∧ rsOf 0x7C642B79 ≠ rbOf 0x7C642B79) ∧
    (opcOf 0x60E90000 = 24 ∧ immOf 0x60E90000 = 0 ∧ ¬(rsOf 0x60E90000 = 0 ∧ raOf 0x60E90000 = 0) ∧
      raOf 0x60E90000 = raOf 0x7CE93B78 ∧ rsOf 0x60E90000 = rsOf 0x7CE93B78) := by
  decide

theorem witness_RomLookupIsBoundsChecked :
    defaultSubRom.length ≤ 16 ∧ defaultSubRom[2]? = some none ∧ defaultSubRom[15]? = some (some "nabs") ∧
    (opcOf 0x7C642890 = 31 ∧ selOf 0x7C642890 = 0x08 ∧ rom defaultConfig.subRom (idx4Of 0x7C642890).toNat = none) ∧
    (selOf 0x7C642FF9 = 0x1C ∧ idx5Of 0x7C642FF9 = 31 ∧
      rom defaultConfig.logicRom (idx5Of 0x7C642FF9).toNat = none) ∧
    (selOf 0x7C642BEE = 0x17 ∧ rom defaultConfig.ldstRom (idx5Of 0x7C642BEE).toNat = none) ∧
    some "subfme" ∈ defaultConfig.subRom := by
  decide

/-- Two words of one `LI24` that differ in `AA` and `LK`, with bit 25 set. -/
theorem witness_BranchDisplacementIsTheFieldInPlace :
    li24Of 0x4A000003 = li24Of 0x4A000000 ∧ aaOf 0x4A000003 ≠ aaOf 0x4A000000 ∧
      branchDisplacement 0x4A000000 = 0xFE000000 ∧ branchDisplacement 0x49FFFFFC = 0x01FFFFFC := by
  decide

theorem witness_TierBAcceptsOnlyTheTrapWord :
    opcOf 0x7C00000A = 31 ∧ selOf 0x7C00000A ≠ 0x08 ∧ selOf 0x7C00000A ≠ 0x1C ∧ selOf 0x7C00000A ≠ 0x17 ∧
      extOpcOf 0x7C00000A = 5 ∧ extOpcOf 0x7C00000A ≠ 4 ∧ extOpcOf 0x7C000048 = 36 ∧
      selOf 0x7C000048 = selOf 0x7C000008 := by
  decide

theorem witness_RecordDependsOnAddressAndSettingOnlyWhereSaid :
    (0 : Word) ≠ 1 ∧ opcOf 0x48000000 ≠ 31 ∧
      decodeRecord defaultConfig 0x48000000 0 true ≠ decodeRecord defaultConfig 0x48000000 1 true ∧
      decodeRecord defaultConfig 0x60000000 0 true ≠ decodeRecord defaultConfig 0x60000000 0 false := by
  decide

/-- Each clause at an end of its range: the bit clear at position 0; no bit above position 31 and none above position
25; the first position above 25. -/
theorem witness_SignExtensionUnderItsPrecondition :
    (0xFFFFFFFE#32).getLsbD (0 : Fin 32) = false ∧
      (∀ i, (31 : Fin 32).val < i → (0x80000000#32).getLsbD i = false) ∧
      (∀ i, (25 : Fin 32).val < i → (0x02000000#32).getLsbD i = false) ∧ 25 < 26 := by
  refine ⟨by decide, fun i hi => BitVec.getLsbD_of_ge _ _ (Nat.succ_le_of_lt hi), fun i hi => ?_, by decide⟩
  by_cases h : i < 32
  · have : ∀ k : Fin 32, 25 < k.val → (0x02000000#32).getLsbD k = false := by decide
    exact this ⟨i, h⟩ hi
  · exact BitVec.getLsbD_of_ge _ _ (Nat.le_of_not_lt h)

theorem witness_SignExtensionBitByBit : 0 < 32 ∧ 31 < 32 := by
  decide

theorem witness_PaddingFillsTheColumnAndNeverTruncates : 8 ≤ "subfzeo.".length := by
  decide

theorem witness_NumeralsLoseNoInformation :
    hex4 0xABCD = hex4 0xABCD ∧ hex8 0xDEADBEEF = hex8 0xDEADBEEF ∧ dec 31 = dec 31 ∧
      render (illegalRecord 0) = render (illegalRecord 0) :=
  ⟨rfl, rfl, rfl, rfl⟩

theorem witness_MnemonicsFitTheColumn :
    (decodeRecord defaultConfig 0x7C640591 0 true).mnem.length = 8 ∧
      (decodeRecord defaultConfig 0x7C6405D1 0 true).mnem.length = 8 := by
  decide

/-- No decode at all, and two of them with a `LoadAddr` after. -/
theorem witness_CursorAdvancesByFourPerDecode :
    (between []).addr = some 0x1004 ∧ (between []).pending = [] ++ [] ∧
      (between [.decode 0 true, .decode 0xFFFFFFFF false, .loadAddr 0]).pending =
        [.decode 0 true, .decode 0xFFFFFFFF false] ++ [.loadAddr 0] ∧
      ∀ x ∈ [HostAction.decode 0 true, HostAction.decode 0xFFFFFFFF false], x.isDecode = true := by
  decide

theorem witness_DecodingTheSameInputsGivesTheSameText :
    (between [.decode 0x48000105 true]).addr = some 0x1004 ∧
      (presented 0x48000105 0x1004 true).addr = some 0x1004 ∧
      (between [.decode 0x48000105 true]).pending = .decode 0x48000105 true :: [] ∧
      (presented 0x48000105 0x1004 true).pending = .decode 0x48000105 true :: [] ∧
      (between [.loadAddr 0x2000, .decode 0x48000105 true, .loadAddr 0x2000, .decode 0x48000105 true]).pending =
        .loadAddr 0x2000 :: .decode 0x48000105 true :: .loadAddr 0x2000 :: .decode 0x48000105 true :: [] ∧
      (between [.decode 0x48000105 true, .decode 0x48000105 true]).pending =
        .decode 0x48000105 true :: .decode 0x48000105 true :: [] ∧
      decodeText defaultConfig 0x48000105 0x2000 true ≠ decodeText defaultConfig 0x48000105 0x2004 true := by
  decide

/-- One illegal word, and three with both settings. -/
theorem witness_IllegalWordsLeaveNoTrace :
    (between [.decode 0 true]).addr = some 0x1004 ∧
      (between [.decode 0 true]).pending =
        (([] : List (Word × Bool)) ++ [(0, true)]).map (fun w : Word × Bool => HostAction.decode w.1 w.2) ++ [] ∧
      (between [.decode 0x7C642A14 true, .decode 0xFFFFFFFF false, .decode 0 true]).pending =
        ([((0x7C642A14, true) : Word × Bool), (0xFFFFFFFF, false)] ++ [(0, true)]).map
          (fun w : Word × Bool => HostAction.decode w.1 w.2) ++ [] ∧
      ∀ w ∈ [((0x7C642A14, true) : Word × Bool), (0xFFFFFFFF, false)] ++ [(0, true)],
        illegalCause defaultConfig w.1 w.2 ≠ none :=
  ⟨rfl, rfl, rfl, List.forall_mem_cons.2 ⟨by decide, List.forall_mem_cons.2 ⟨by decide, List.forall_mem_cons.2
    ⟨by decide, by simp⟩⟩⟩⟩

/-- A system of two instances, each with an action, and a place with no instance. -/
theorem witness_InstancesShareNoState :
    System.stepAt 0 ⟨[between [.loadAddr 0], between [.loadAddr 8]]⟩ =
        .next ⟨[{ between [] with addr := some 0 }, between [.loadAddr 8]]⟩ ∧
      System.stepAt 1 ⟨[between [.loadAddr 0], between [.loadAddr 8]]⟩ =
        .next ⟨[between [.loadAddr 0], { between [] with addr := some 8 }]⟩ ∧
      System.stepAt 2 ⟨[between [.loadAddr 0], between [.loadAddr 8]]⟩ =
        .next ⟨[between [.loadAddr 0], between [.loadAddr 8]]⟩ ∧ 0 ≠ 1 :=
  ⟨rfl, rfl, rfl, by decide⟩

/-- A mnemonic that fills the column with its operands, and the record with none. -/
theorem witness_PackingLosesNoInformation :
    "subfzeo.".length ≤ 8 ∧ [Operand.gpr 3, Operand.gpr 4, Operand.gpr 5].length ≤ 3 ∧
      (∀ c ∈ "subfzeo.".toList, 0 < c.toNat ∧ c.toNat < 128) ∧
      pack ⟨false, "subfzeo.", [.gpr 3, .gpr 4, .gpr 5]⟩ = pack ⟨false, "subfzeo.", [.gpr 3, .gpr 4, .gpr 5]⟩ ∧
      "nop".length ≤ 8 ∧ (∀ c ∈ "nop".toList, 0 < c.toNat ∧ c.toNat < 128) ∧
      pack (bare "nop") = pack (bare "nop") :=
  ⟨by decide, by decide, by simp, rfl, by decide, by simp, rfl⟩

end witnesses

end Sys2Proof.Tests
end

/-! PROOFS. The displacement of a branch word (R34): the masked word is `LI24` with two zero bits below, and the
sign-extension logic on it is the sign extension of 26 bits. -/

namespace Sys2Proof.Machine

/-- Where the bits above `p` are zero, the logic of R50 is the sign extension of the low `p + 1` bits (R51). -/
theorem signExtend_eq_signExtend_setWidth {v : Word} {p : Fin 32} (hv : ∀ i, p.val < i → v.getLsbD i = false) :
    signExtend v p = (v.setWidth (p.val + 1)).signExtend 32 := by
  have hmsb : (v.setWidth (p.val + 1)).msb = v.getLsbD p.val := by simp [BitVec.msb_setWidth]
  apply BitVec.eq_of_getLsbD_eq
  intro i hi
  rw [BitVec.getLsbD_signExtend, BitVec.getLsbD_setWidth, hmsb, decide_eq_true hi, Bool.true_and]
  cases hp : v.getLsbD p.val with
  | false =>
    rw [signExtend_of_clear hp]
    by_cases h : p.val < i
    · rw [hv i h, if_neg (by omega)]
    · simp [show i < p.val + 1 by omega]
  | true =>
    rw [signExtend_getLsbD_of_set hp hi]
    by_cases h : p.val < i
    · simp [h, show ¬i < p.val + 1 by omega]
    · simp [h, show i < p.val + 1 by omega]

/-- The masked branch word is `LI24` with two zero bits below, zero-extended (R34). -/
theorem branch_mask_eq_li24_append (code : Word) :
    code &&& 0x03FFFFFC#32 = (li24Of code ++ 0#2).setWidth 32 := by
  rw [branch_mask_eq]
  apply BitVec.eq_of_getLsbD_eq
  intro i hi
  rw [BitVec.getLsbD_setWidth, BitVec.getLsbD_append, BitVec.getLsbD_shiftLeft]
  by_cases h : i < 2
  · simp [h]
  · simp [hi, h, show i - 2 < 32 by omega]

/-- The mask clears bits 31:26 (R34, R51). -/
theorem branch_mask_getLsbD_of_high (code : Word) {i : Nat} (hi : 25 < i) :
    (code &&& 0x03FFFFFC#32).getLsbD i = false := by
  rw [branch_mask_eq_li24_append, BitVec.getLsbD_setWidth, BitVec.getLsbD_of_ge _ i (by omega), Bool.and_false]

/-- The mask keeps bit 25, the sign bit of the field (R34). -/
theorem branch_mask_getLsbD_sign (code : Word) : (code &&& 0x03FFFFFC#32).getLsbD 25 = code.getLsbD 25 := by
  simp

/-- The displacement sets bits 31:26 of the masked word where bit 25 is set (R34). -/
theorem branchDisplacement_eq_ite (code : Word) :
    branchDisplacement code =
      if code.getLsbD 25 then (code &&& 0x03FFFFFC#32) ||| 0xFC000000#32 else code &&& 0x03FFFFFC#32 := by
  have hsign : (code &&& 0x03FFFFFC#32).getLsbD (25 : Fin 32) = code.getLsbD 25 := branch_mask_getLsbD_sign code
  have hones : 0xFFFFFFFF#32 <<< ((25 : Fin 32).val + 1) = 0xFC000000#32 := by decide
  rw [branchDisplacement, signExtend, hsign, hones]

/-- The displacement is the masked word's sign extension from 26 bits (R34). -/
theorem branchDisplacement_eq_signExtend_mask (code : Word) :
    branchDisplacement code = ((code &&& 0x03FFFFFC#32).setWidth 26).signExtend 32 :=
  signExtend_eq_signExtend_setWidth fun _ hi => branch_mask_getLsbD_of_high code hi

/-- The displacement is `LI24` with two zero bits below, sign-extended (R34). -/
theorem branchDisplacement_eq_signExtend_li24 (code : Word) :
    branchDisplacement code = (li24Of code ++ 0#2).signExtend 32 := by
  rw [branchDisplacement_eq_signExtend_mask, branch_mask_eq_li24_append,
    BitVec.setWidth_setWidth_of_le _ (by decide), BitVec.setWidth_eq]

/-- As a signed number the displacement is four times `LI24` (R34). -/
theorem toInt_branchDisplacement (code : Word) :
    (branchDisplacement code).toInt = 4 * (li24Of code).toInt := by
  rw [branchDisplacement_eq_signExtend_li24, BitVec.toInt_signExtend_of_le (by decide), BitVec.toInt_append_zero]
  rfl

/-- Settles O43: the mask leaves `LI24` in place, and the rest follows from the displacement being its sign extension. -/
theorem branchDisplacementIsTheFieldInPlace : Obligations.BranchDisplacementIsTheFieldInPlace := by
  intro code
  have hvalue := toInt_branchDisplacement code
  have hlow := (li24Of code).le_toInt
  have hhigh := (li24Of code).toInt_lt
  refine ⟨branch_mask_eq_li24_append code, branchDisplacement_eq_ite code,
    branchDisplacement_eq_signExtend_mask code, hvalue, by omega, by omega, fun code' hli24 => ?_⟩
  rw [branchDisplacement_eq, branchDisplacement_eq, hli24]

end Sys2Proof.Machine

/-! PROOFS. The illegal outcome, handler by handler (R40): the condition under which each handler answers
`ILLEGAL(code)`, and that it answers an accepted record otherwise. -/

namespace Sys2Proof.Machine

/-- A handler's record `d` for the word `code` is `ILLEGAL(code)` under the condition and an accepted record otherwise. -/
def IllegalExactlyWhen (cond : Prop) (code : Word) (d : Decoded) : Prop :=
  (cond ∧ d = illegalRecord code) ∨ (¬cond ∧ d.illegal = false)

theorem IllegalExactlyWhen.illegal_iff {cond : Prop} {code : Word} {d : Decoded}
    (h : IllegalExactlyWhen cond code d) : d.illegal = true ↔ cond := by
  obtain ⟨hc, rfl⟩ | ⟨hc, hd⟩ := h
  · simp [hc, illegalRecord]
  · simp [hc, hd]

theorem IllegalExactlyWhen.eq_illegalRecord {cond : Prop} {code : Word} {d : Decoded}
    (h : IllegalExactlyWhen cond code d) (hd : d.illegal = true) : d = illegalRecord code := by
  obtain ⟨_, heq⟩ | ⟨_, hfalse⟩ := h
  · exact heq
  · simp [hfalse] at hd

/-- The condition may be written in another, equivalent way. -/
theorem IllegalExactlyWhen.congr {cond cond' : Prop} {code : Word} {d : Decoded}
    (h : IllegalExactlyWhen cond code d) (hiff : cond ↔ cond') : IllegalExactlyWhen cond' code d :=
  propext hiff ▸ h

theorem illegalExactlyWhen_illegalRecord {cond : Prop} (code : Word) (h : cond) :
    IllegalExactlyWhen cond code (illegalRecord code) := .inl ⟨h, rfl⟩

theorem illegalExactlyWhen_accepted {cond : Prop} (code : Word) (mnem : String) (ops : List Operand) (h : ¬cond) :
    IllegalExactlyWhen cond code ⟨false, mnem, ops⟩ := .inr ⟨h, rfl⟩

/-- Add-immediate is never illegal (R40, R80, R81). -/
theorem illegalExactlyWhen_handleAddi (code : Word) (simplified : Bool) :
    IllegalExactlyWhen False code (handleAddi code simplified) := by
  unfold handleAddi
  dsimp only
  split_ifs <;> exact illegalExactlyWhen_accepted _ _ _ not_false

/-- Or-immediate is never illegal (R40, R85). -/
theorem illegalExactlyWhen_handleOri (code : Word) (simplified : Bool) :
    IllegalExactlyWhen False code (handleOri code simplified) := by
  unfold handleOri
  dsimp only
  split_ifs <;> exact illegalExactlyWhen_accepted _ _ _ not_false

/-- A branch is never illegal (R40, R90). -/
theorem illegalExactlyWhen_handleBranch (code addr : Word) : IllegalExactlyWhen False code (handleBranch code addr) :=
  illegalExactlyWhen_accepted _ _ _ not_false

/-- IL2 and IL3: an empty entry, or a nonzero `rb` at a two-operand index (R40, R110). -/
theorem illegalExactlyWhen_handleSubtract (cfg : Config) (code : Word) :
    IllegalExactlyWhen
      (rom cfg.subRom (idx4Of code).toNat = none ∨ (twoOperandIndex (idx4Of code) = true ∧ rbOf code ≠ 0))
      code (handleSubtract cfg code) := by
  unfold handleSubtract
  cases hrom : rom cfg.subRom (idx4Of code).toNat with
  | none => exact illegalExactlyWhen_illegalRecord _ (.inl rfl)
  | some m =>
    dsimp only
    split_ifs with htwo hrb
    · exact illegalExactlyWhen_illegalRecord _ (.inr ⟨htwo, hrb⟩)
    · exact illegalExactlyWhen_accepted _ _ _ (by simpa using fun _ => not_not.1 hrb)
    · exact illegalExactlyWhen_accepted _ _ _ (by simp [htwo])

/-- IL4: not the move-register idiom, and an empty entry (R40, R130, R139). -/
theorem illegalExactlyWhen_handleLogical (cfg : Config) (code : Word) (simplified : Bool) :
    IllegalExactlyWhen
      (¬(idx5Of code = idxOr ∧ rsOf code = rbOf code ∧ simplified = true) ∧
        rom cfg.logicRom (idx5Of code).toNat = none)
      code (handleLogical cfg code simplified) := by
  unfold handleLogical
  cases hrom : rom cfg.logicRom (idx5Of code).toNat with
  | none =>
    split
    · next hmr => exact illegalExactlyWhen_accepted _ _ _ fun h => h.1 hmr
    · next hmr => exact illegalExactlyWhen_illegalRecord _ ⟨hmr, rfl⟩
  | some m =>
    split <;> exact illegalExactlyWhen_accepted _ _ _ (by simp)

/-- IL5, IL6 and IL7: an index beyond the last, `rc = 1`, or an empty entry (R40, R150). -/
theorem illegalExactlyWhen_handleLoadStore (cfg : Config) (code : Word) :
    IllegalExactlyWhen
      (ldstLastIndex < (idx5Of code).toNat ∨ rcOf code = true ∨ rom cfg.ldstRom (idx5Of code).toNat = none)
      code (handleLoadStore cfg code) := by
  unfold handleLoadStore
  cases hrom : rom cfg.ldstRom (idx5Of code).toNat with
  | none =>
    dsimp only
    split_ifs <;> exact illegalExactlyWhen_illegalRecord _ (.inr (.inr rfl))
  | some m =>
    dsimp only
    split_ifs with hidx hrc hint
    · exact illegalExactlyWhen_illegalRecord _ (.inl hidx)
    · exact illegalExactlyWhen_illegalRecord _ (.inr (.inl hrc))
    · exact illegalExactlyWhen_accepted _ _ _ (by simp [hidx, hrc])
    · exact illegalExactlyWhen_accepted _ _ _ (by simp [hidx, hrc])

/-- IL8 and IL9: `tw` with `rc = 1`, or any other extended opcode (R40, R102, R180). -/
theorem illegalExactlyWhen_handleTierB (code : Word) :
    IllegalExactlyWhen
      ((extOpcOf code = extOpcTw ∧ rcOf code = true) ∨ extOpcOf code ≠ extOpcTw) code (handleTierB code) := by
  unfold handleTierB
  split_ifs with htw
  · unfold handleTw
    split_ifs with hrc
    · exact illegalExactlyWhen_illegalRecord _ (.inl ⟨htw, hrc⟩)
    · exact illegalExactlyWhen_accepted _ _ _ (by simp [htw, hrc])
  · exact illegalExactlyWhen_illegalRecord _ (.inr htw)

/-- The two-operand indices by number (R110 (b)). -/
theorem twoOperandIndex_iff (idx4 : BitVec 4) : twoOperandIndex idx4 = true ↔ idx4.toNat ∈ [3, 6, 7, 11, 15] := by
  revert idx4
  decide

/-- The eight conditions IL2 to IL9 of the extended group, in the order of R40. -/
def ExtIllegal (cfg : Config) (code : Word) (simplified : Bool) : Prop :=
  (selOf code = 0x08 ∧ rom cfg.subRom (idx4Of code).toNat = none) ∨
  (selOf code = 0x08 ∧ (idx4Of code).toNat ∈ [3, 6, 7, 11, 15] ∧ rbOf code ≠ 0) ∨
  (selOf code = 0x1C ∧ ¬(idx5Of code = 13 ∧ rsOf code = rbOf code ∧ simplified = true) ∧
    rom cfg.logicRom (idx5Of code).toNat = none) ∨
  (selOf code = 0x17 ∧ 23 < (idx5Of code).toNat) ∨
  (selOf code = 0x17 ∧ rcOf code = true) ∨
  (selOf code = 0x17 ∧ rom cfg.ldstRom (idx5Of code).toNat = none) ∨
  (selOf code ≠ 0x08 ∧ selOf code ≠ 0x1C ∧ selOf code ≠ 0x17 ∧ extOpcOf code = 4 ∧ rcOf code = true) ∨
  (selOf code ≠ 0x08 ∧ selOf code ≠ 0x1C ∧ selOf code ≠ 0x17 ∧ extOpcOf code ≠ 4)

/-- The selector picks one family, and the other families' conditions cannot hold (R40, R101). -/
theorem illegalExactlyWhen_handleExt (cfg : Config) (code : Word) (simplified : Bool) :
    IllegalExactlyWhen (ExtIllegal cfg code simplified) code (handleExt cfg code simplified) := by
  unfold handleExt ExtIllegal
  split_ifs with hsub hlogic hldst
  · refine (illegalExactlyWhen_handleSubtract cfg code).congr ?_
    simp [hsub, selSubtract, twoOperandIndex_iff]
  · refine (illegalExactlyWhen_handleLogical cfg code simplified).congr ?_
    simp [hlogic, selLogical, idxOr]
  · refine (illegalExactlyWhen_handleLoadStore cfg code).congr ?_
    simp [hldst, selLoadStore, ldstLastIndex]
  · refine (illegalExactlyWhen_handleTierB code).congr ?_
    have h08 : selOf code ≠ 0x08#5 := hsub
    have h1C : selOf code ≠ 0x1C#5 := hlogic
    have h17 : selOf code ≠ 0x17#5 := hldst
    simp [h08, h1C, h17, extOpcTw]

/-- R40's list: IL1, or primary opcode 31 with one of IL2 to IL9. -/
def WordIllegal (cfg : Config) (code : Word) (simplified : Bool) : Prop :=
  (opcOf code ≠ cfg.opcAddi ∧ opcOf code ≠ 24 ∧ opcOf code ≠ cfg.opcB ∧ opcOf code ≠ 31) ∨
  (opcOf code = 31 ∧ ExtIllegal cfg code simplified)

/-- A word whose primary opcode has a handler that is never illegal is not on R40's list. -/
theorem not_wordIllegal_of_handled {cfg : Config} {code : Word} {simplified : Bool}
    (hhandled : opcOf code = cfg.opcAddi ∨ opcOf code = opcOri ∨ opcOf code = cfg.opcB)
    (hext : opcOf code ≠ opcExt) : ¬WordIllegal cfg code simplified := by
  rintro (⟨haddi, hori, hb, _⟩ | ⟨h31, _⟩)
  · obtain h | h | h := hhandled
    · exact haddi h
    · exact hori h
    · exact hb h
  · exact hext h31

/-- The block's record is `ILLEGAL(code)` exactly for the words of R40's list, by the handler the opcode selects. -/
theorem illegalExactlyWhen_decodeRecord {cfg : Config} (hok : configOk cfg = true) (code addr : Word)
    (simplified : Bool) :
    IllegalExactlyWhen (WordIllegal cfg code simplified) code (decodeRecord cfg code addr simplified) := by
  have facts := configFacts hok
  unfold decodeRecord
  cases hd : dispatch cfg (opcOf code) with
  | addi =>
    have hopc := opc_of_dispatch_addi hd
    have hnot : ¬WordIllegal cfg code simplified :=
      not_wordIllegal_of_handled (.inl hopc) (hopc ▸ facts.addi_ne_ext)
    exact (illegalExactlyWhen_handleAddi code simplified).congr (iff_of_false not_false hnot)
  | ori =>
    have hopc := opc_of_dispatch_ori hd
    have hnot : ¬WordIllegal cfg code simplified :=
      not_wordIllegal_of_handled (.inr (.inl hopc)) (hopc ▸ by decide)
    exact (illegalExactlyWhen_handleOri code simplified).congr (iff_of_false not_false hnot)
  | branch =>
    have hopc := opc_of_dispatch_branch hd
    have hnot : ¬WordIllegal cfg code simplified :=
      not_wordIllegal_of_handled (.inr (.inr hopc)) (hopc ▸ facts.b_ne_ext)
    exact (illegalExactlyWhen_handleBranch code addr).congr (iff_of_false not_false hnot)
  | ext =>
    have hopc : opcOf code = 31 := opc_of_dispatch_ext hd
    refine (illegalExactlyWhen_handleExt cfg code simplified).congr ?_
    simp [WordIllegal, hopc]
  | illegal => exact illegalExactlyWhen_illegalRecord _ (.inl (dispatch_eq_illegal_iff.1 hd))

/-- The text of the illegal record: `dc.l` fills its column with four blanks (R76). -/
theorem render_illegalRecord (code : Word) : render (illegalRecord code) = "dc.l    0x" ++ hex8 code := by
  have hcolumn : pad8 "dc.l" ++ "0x" = "dc.l    0x" := by decide
  rw [← hcolumn, String.append_assoc]
  rfl

/-- One step of the block on a `Decode` with the cursor written delivers the word's record (R70, R73). -/
theorem blockStep_decode {cfg : Config} {s : State} {a code : Word} {simplified : Bool} {rest : List HostAction}
    (ha : s.addr = some a) (hp : s.pending = .decode code simplified :: rest) :
    blockStep cfg s = .next ((s.withPending rest).delivered a (decodeRecord cfg code a simplified)) := by
  simp only [blockStep, hp]
  exact transact_of_addr (by simpa using ha)

/-- Settles O28: each handler is illegal exactly under its own conditions, and its illegal record is `ILLEGAL(code)`. -/
theorem illegalOutcomesAreExactlyTheNineConditions : Obligations.IllegalOutcomesAreExactlyTheNineConditions := by
  intro cfg hok code addr simplified
  have hrecord := illegalExactlyWhen_decodeRecord hok code addr simplified
  refine ⟨hrecord.illegal_iff, fun hill => ?_⟩
  have heq : decodeRecord cfg code addr simplified = illegalRecord code := hrecord.eq_illegalRecord hill
  refine ⟨heq, ?_, fun s rest ha hp => ?_⟩
  · rw [decodeText, heq, render_illegalRecord]
  · refine ⟨_, blockStep_decode ha hp, ?_⟩
    rw [State.delivered_out, heq]
    rfl

end Sys2Proof.Machine

/-! PROOFS. The precondition of the sign-extension logic (R51). -/

namespace Sys2Proof.Machine

/-- Settles O44: the two cases of bit `p`, and the branch word's mask as what gives its one caller the precondition. -/
theorem signExtensionUnderItsPrecondition : Obligations.SignExtensionUnderItsPrecondition := by
  refine ⟨fun v p hclear => ?unchanged, fun v p hhigh => ?signExtended, fun code i hi => ?masked, fun code => ?caller⟩
  case unchanged => exact signExtend_of_clear hclear
  case signExtended => exact signExtend_eq_signExtend_setWidth hhigh
  case masked => exact branch_mask_getLsbD_of_high code hi
  case caller => exact branchDisplacement_eq_signExtend_mask code

end Sys2Proof.Machine

/-! PROOFS. The hexadecimal numerals and the illegal-instruction rendering (R55, R61). -/

namespace Sys2Proof.Machine

/-- The digit list of the model is the alphabet R55 writes out. -/
theorem toList_alphabet : "0123456789ABCDEF".toList = hexDigits := by decide

/-- A four-bit value has its digit in the alphabet, so `hexDigit` never answers its default. -/
theorem getElem?_hexDigits (d : BitVec 4) : hexDigits[d.toNat]? = some (hexDigit d) := by
  have hplace : d.toNat < hexDigits.length := d.isLt
  rw [hexDigit, List.getD_eq_getElem _ _ hplace, List.getElem?_eq_getElem hplace]

/-- The characters of `hex4`: the digits of the four nibbles, the highest first (R55). -/
theorem toList_hex4 (v : BitVec 16) :
    (hex4 v).toList =
      [v.extractLsb' 12 4, v.extractLsb' 8 4, v.extractLsb' 4 4, v.extractLsb' 0 4].map hexDigit := by
  rw [hex4, String.toList_ofList]
  rfl

/-- Settles O48: each character is the digit of its nibble, and each digit stands in the alphabet at its value. -/
theorem shortHexadecimalNumeralHasFourDigits : Obligations.ShortHexadecimalNumeralHasFourDigits := by
  refine ⟨fun v => ⟨length_hex4 v, ?digits⟩, by decide, by decide, by decide⟩
  case digits =>
    rw [toList_hex4, toList_alphabet, List.map_map]
    exact List.map_congr_left fun d _ => (getElem?_hexDigits d).symm

/-- The illegal record's text is `dc.l    0x`, ten characters, and eight digits (R61). -/
theorem length_render_illegalRecord (code : Word) : (render (illegalRecord code)).length = 18 := by
  have hten : "dc.l    0x".length = 10 := by decide
  rw [render_illegalRecord, String.length_append, hten, length_hex8]

/-- Settles O50: the form and the length for every word, and R61's own word by its eight digits. -/
theorem illegalRenderingIsEighteenCharacters : Obligations.IllegalRenderingIsEighteenCharacters := by
  refine ⟨fun code => ⟨render_illegalRecord code, length_render_illegalRecord code⟩, ?ruleWord⟩
  case ruleWord =>
    have hdigits : hex8 0x7C6428D0 = "7C6428D0" := by decide
    rw [render_illegalRecord, hdigits]
    decide

end Sys2Proof.Machine

/-! PROOFS. The dispatch ROM (R71): the handler each of the four handled opcodes selects. -/

namespace Sys2Proof.Machine

theorem length_dispatchRom (cfg : Config) : (dispatchRom cfg).length = 64 := by
  rw [dispatchRom, List.length_map, List.length_range, primaryOpcodes]

/-- Add-immediate is tested first, so its opcode needs no constraint on the others (R71). -/
theorem dispatch_opcAddi (cfg : Config) : dispatch cfg cfg.opcAddi = .addi := by
  rw [dispatch_eq, handlerFor, if_pos rfl]

theorem dispatch_opcOri {cfg : Config} (facts : ConfigFacts cfg) : dispatch cfg opcOri = .ori := by
  rw [dispatch_eq, handlerFor, if_neg facts.addi_ne_ori.symm, if_pos rfl]

theorem dispatch_opcB {cfg : Config} (facts : ConfigFacts cfg) : dispatch cfg cfg.opcB = .branch := by
  rw [dispatch_eq, handlerFor, if_neg facts.addi_ne_b.symm, if_neg facts.b_ne_ori, if_pos rfl]

theorem dispatch_opcExt {cfg : Config} (facts : ConfigFacts cfg) : dispatch cfg opcExt = .ext := by
  have hne : opcExt ≠ opcOri := by decide
  rw [dispatch_eq, handlerFor, if_neg facts.addi_ne_ext.symm, if_neg hne, if_neg facts.b_ne_ext.symm, if_pos rfl]

/-- Settles O26: the tests of `handlerFor` are exclusive, because the four handled opcodes are distinct. -/
theorem dispatchRomNamesAHandlerForEveryOpcode : Obligations.DispatchRomNamesAHandlerForEveryOpcode := by
  intro cfg hok
  have facts := configFacts hok
  exact ⟨length_dispatchRom cfg, dispatch_opcAddi cfg, dispatch_opcOri facts, dispatch_opcB facts,
    dispatch_opcExt facts, fun opc haddi hori hb hext => dispatch_eq_illegal_iff.2 ⟨haddi, hori, hb, hext⟩⟩

end Sys2Proof.Machine

/-! PROOFS. Totality (R72): every handler's record has a non-empty mnemonic, a text is not empty where the mnemonic is
not, and a step of the block is refused only for the unwritten cursor (R20). -/

namespace Sys2Proof.Machine

/-- What a look-up answers from a ROM whose entries R18 allows is not the empty text. -/
theorem ne_empty_of_rom_eq_some {T : Rom} {i : Nat} {m : String} (hT : ∀ e ∈ T, romEntryOk e = true)
    (h : rom T i = some m) : m ≠ "" :=
  romEntry_ne_empty (hT _ (mem_of_rom_eq_some h))

theorem append_ne_empty {m : String} (h : m ≠ "") (t : String) : m ++ t ≠ "" :=
  fun heq => h (String.append_eq_empty_iff.1 heq).1

theorem illegalRecord_mnem_ne_empty (code : Word) : (illegalRecord code).mnem ≠ "" :=
  show "dc.l" ≠ "" by decide

theorem handleAddi_mnem_ne_empty (code : Word) (simplified : Bool) : (handleAddi code simplified).mnem ≠ "" := by
  unfold handleAddi
  dsimp only
  split_ifs <;> simp

theorem handleOri_mnem_ne_empty (code : Word) (simplified : Bool) : (handleOri code simplified).mnem ≠ "" := by
  unfold handleOri
  dsimp only
  split_ifs <;> simp

theorem branchMnemonic_ne_empty : ∀ aa lk : Bool, branchMnemonic aa lk ≠ "" := by decide

theorem handleSubtract_mnem_ne_empty {cfg : Config} (facts : ConfigFacts cfg) (code : Word) :
    (handleSubtract cfg code).mnem ≠ "" := by
  unfold handleSubtract
  split
  · exact illegalRecord_mnem_ne_empty code
  · next m hrom =>
    have hm := append_ne_empty (ne_empty_of_rom_eq_some facts.sub_entries hrom) (suffix (oeOf code) (rcOf code))
    dsimp only
    split_ifs
    · exact illegalRecord_mnem_ne_empty code
    · exact hm
    · exact hm

theorem handleLogical_mnem_ne_empty {cfg : Config} (facts : ConfigFacts cfg) (code : Word) (simplified : Bool) :
    (handleLogical cfg code simplified).mnem ≠ "" := by
  unfold handleLogical
  split
  · show (if rcOf code then "mr." else "mr") ≠ ""
    split_ifs <;> decide
  · split
    · exact illegalRecord_mnem_ne_empty code
    · next m hrom =>
      exact append_ne_empty (ne_empty_of_rom_eq_some facts.logic_entries hrom) (suffix false (rcOf code))

theorem handleLoadStore_mnem_ne_empty {cfg : Config} (facts : ConfigFacts cfg) (code : Word) :
    (handleLoadStore cfg code).mnem ≠ "" := by
  unfold handleLoadStore
  cases hrom : rom cfg.ldstRom (idx5Of code).toNat with
  | none =>
    dsimp only
    split_ifs <;> exact illegalRecord_mnem_ne_empty code
  | some m =>
    have hm : m ≠ "" := ne_empty_of_rom_eq_some facts.ldst_entries hrom
    dsimp only
    split_ifs
    · exact illegalRecord_mnem_ne_empty code
    · exact illegalRecord_mnem_ne_empty code
    · exact hm
    · exact hm

theorem handleTierB_mnem_ne_empty (code : Word) : (handleTierB code).mnem ≠ "" := by
  unfold handleTierB handleTw
  split_ifs
  · exact illegalRecord_mnem_ne_empty code
  · show "tw" ≠ ""
    decide
  · exact illegalRecord_mnem_ne_empty code

theorem handleExt_mnem_ne_empty {cfg : Config} (facts : ConfigFacts cfg) (code : Word) (simplified : Bool) :
    (handleExt cfg code simplified).mnem ≠ "" := by
  unfold handleExt
  split_ifs
  · exact handleSubtract_mnem_ne_empty facts code
  · exact handleLogical_mnem_ne_empty facts code simplified
  · exact handleLoadStore_mnem_ne_empty facts code
  · exact handleTierB_mnem_ne_empty code

/-- Every word decodes to a record with a non-empty mnemonic, by the handler its opcode selects (R72). -/
theorem decodeRecord_mnem_ne_empty {cfg : Config} (facts : ConfigFacts cfg) (code addr : Word) (simplified : Bool) :
    (decodeRecord cfg code addr simplified).mnem ≠ "" := by
  unfold decodeRecord
  cases dispatch cfg (opcOf code) with
  | addi => exact handleAddi_mnem_ne_empty code simplified
  | ori => exact handleOri_mnem_ne_empty code simplified
  | branch => exact branchMnemonic_ne_empty (aaOf code) (lkOf code)
  | ext => exact handleExt_mnem_ne_empty facts code simplified
  | illegal => exact illegalRecord_mnem_ne_empty code

/-- A text begins with its mnemonic, padded or bare (R58). -/
theorem render_ne_empty {d : Decoded} (h : d.mnem ≠ "") : render d ≠ "" := by
  unfold render
  split
  · exact h
  · exact append_ne_empty (append_ne_empty h _) _

/-- A decode transaction is refused only for the unwritten cursor (R20). -/
theorem transact_eq_refused_iff {h : Word → Decoded} {s : State} {r : Refusal} :
    transact h s = .refused r ↔ s.addr = none ∧ r = .addrUnwritten := by
  cases ha : s.addr with
  | none => simp [transact_of_unwritten ha, eq_comm]
  | some a => simp [transact_of_addr ha]

/-- A step of the block never faults (R72, R200). -/
theorem blockStep_ne_fault {cfg : Config} {s : State} {r : Fault} : blockStep cfg s ≠ .fault r := nomatch r

/-- The one refusal of a step of the block: a `Decode` before `ADDR` has been written (R20). -/
theorem blockStep_refused {cfg : Config} {s : State} {r : Refusal} (h : blockStep cfg s = .refused r) :
    r = .addrUnwritten ∧ s.addr = none ∧ ∃ code simplified rest, s.pending = .decode code simplified :: rest := by
  unfold blockStep at h
  split at h
  · cases h
  · cases h
  · next code simplified rest hp =>
    obtain ⟨ha, hr⟩ := transact_eq_refused_iff.1 h
    exact ⟨hr, ha, code, simplified, rest, hp⟩

/-- Settles O27: the handlers' mnemonics are not empty, and a step on a `Decode` delivers the record. -/
theorem decodeIsTotalWithNonEmptyText : Obligations.DecodeIsTotalWithNonEmptyText := by
  intro cfg hok
  refine ⟨fun code addr simplified => ?record, fun s a code simplified rest ha hp => ?delivered,
    fun s r => blockStep_ne_fault, fun s r => blockStep_refused⟩
  case record =>
    have hmnem := decodeRecord_mnem_ne_empty (configFacts hok) code addr simplified
    exact ⟨hmnem, render_ne_empty hmnem⟩
  case delivered => exact ⟨_, blockStep_decode ha hp, rfl, rfl⟩

end Sys2Proof.Machine

/-! PROOFS. Determinism (R74): the record of a word depends on the cursor for a relative branch only, in the block and in
the machine of the opcode table, and what a `Decode` delivers depends on the state through the cursor only. -/

namespace Sys2Proof.Machine

/-- A branch word whose target counts from the cursor: the primary opcode `OPC_B` with `AA = 0` (R91). -/
def RelativeBranch (cfg : Config) (code : Word) : Prop :=
  opcOf code = cfg.opcB ∧ aaOf code = false

/-- The block's record of any other word does not depend on the cursor (R78, R91). -/
theorem decodeRecord_addr_irrelevant {cfg : Config} {code : Word} (h : ¬RelativeBranch cfg code) (addr addr' : Word)
    (simplified : Bool) : decodeRecord cfg code addr simplified = decodeRecord cfg code addr' simplified := by
  unfold decodeRecord
  cases hd : dispatch cfg (opcOf code) with
  | branch =>
    have haa : aaOf code = true := by simpa [RelativeBranch, opc_of_dispatch_branch hd] using h
    simp [handleBranch, haa]
  | addi | ori | ext | illegal => rfl

/-- The instruction delivers one record, whatever the cursor holds. -/
def AddressFree (i : Instr) : Prop :=
  ∃ d, ∀ s, exec i s = transact (fun _ => d) s

theorem addressFree_decodeAddi (code : Word) (simplified : Bool) : AddressFree (decodeAddi code simplified) := by
  unfold decodeAddi
  split_ifs <;> exact ⟨_, fun _ => rfl⟩

theorem addressFree_decodeOri (code : Word) (simplified : Bool) : AddressFree (decodeOri code simplified) := by
  unfold decodeOri
  split_ifs <;> exact ⟨_, fun _ => rfl⟩

/-- The absolute branches do not read the cursor (R94, R95). -/
theorem addressFree_decodeBranch {code : Word} (haa : aaOf code = true) : AddressFree (decodeBranch code) := by
  unfold decodeBranch
  rw [haa]
  cases lkOf code <;> exact ⟨_, fun _ => rfl⟩

theorem addressFree_bySuffix (oe rc : Bool) {plain withRc withOe withOeRc : Instr} (hplain : AddressFree plain)
    (hrc : AddressFree withRc) (hoe : AddressFree withOe) (hoeRc : AddressFree withOeRc) :
    AddressFree (bySuffix oe rc plain withRc withOe withOeRc) := by
  cases oe <;> cases rc <;> assumption

theorem addressFree_byRc (rc : Bool) {plain withRc : Instr} (hplain : AddressFree plain)
    (hrc : AddressFree withRc) : AddressFree (byRc rc plain withRc) := by
  cases rc <;> assumption

theorem addressFree_dcl (code : Word) : AddressFree (.dcl code) := ⟨_, fun _ => rfl⟩

theorem addressFree_decodeSubtract (code : Word) : AddressFree (decodeSubtract code) := by
  unfold decodeSubtract
  dsimp only
  split
  · exact addressFree_dcl code
  · split
    case h_10 => exact addressFree_dcl code
    all_goals
      exact addressFree_bySuffix _ _ ⟨_, fun _ => rfl⟩ ⟨_, fun _ => rfl⟩ ⟨_, fun _ => rfl⟩ ⟨_, fun _ => rfl⟩

theorem addressFree_decodeLogical (code : Word) (simplified : Bool) :
    AddressFree (decodeLogical code simplified) := by
  unfold decodeLogical
  dsimp only
  split
  · exact addressFree_byRc _ ⟨_, fun _ => rfl⟩ ⟨_, fun _ => rfl⟩
  · split
    case h_9 => exact addressFree_dcl code
    all_goals exact addressFree_byRc _ ⟨_, fun _ => rfl⟩ ⟨_, fun _ => rfl⟩

theorem addressFree_decodeLoadStore (code : Word) : AddressFree (decodeLoadStore code) := by
  unfold decodeLoadStore
  dsimp only
  split
  · exact addressFree_dcl code
  · split <;> exact ⟨_, fun _ => rfl⟩

theorem addressFree_decodeTierB (code : Word) : AddressFree (decodeTierB code) := by
  unfold decodeTierB
  split_ifs <;> exact ⟨_, fun _ => rfl⟩

theorem addressFree_decodeExt (code : Word) (simplified : Bool) : AddressFree (decodeExt code simplified) := by
  unfold decodeExt
  split_ifs
  · exact addressFree_decodeSubtract code
  · exact addressFree_decodeLogical code simplified
  · exact addressFree_decodeLoadStore code
  · exact addressFree_decodeTierB code

/-- A word that is no relative branch reads as an instruction that does not read the cursor (R78, R91). -/
theorem addressFree_decodeWord {code : Word} (h : ¬RelativeBranch defaultConfig code) (simplified : Bool) :
    AddressFree (decodeWord code simplified) := by
  unfold decodeWord
  cases hd : dispatch defaultConfig (opcOf code) with
  | addi => exact addressFree_decodeAddi code simplified
  | ori => exact addressFree_decodeOri code simplified
  | branch =>
    have haa : aaOf code = true := by simpa [RelativeBranch, opc_of_dispatch_branch hd] using h
    exact addressFree_decodeBranch haa
  | ext => exact addressFree_decodeExt code simplified
  | illegal => exact addressFree_dcl code

/-- The record that a `Decode` of the word delivers, as a function of the cursor alone: on every state whose cursor is
written, one step delivers it (R70, R73). -/
def DecodesTo (code : Word) (simplified : Bool) (record : Word → Decoded) : Prop :=
  ∀ {s : State} {a : Word} {rest : List HostAction}, s.addr = some a → s.pending = .decode code simplified :: rest →
    step s = .next ((s.withPending rest).delivered a (record a))

theorem decodesTo_of_exec {code : Word} {simplified : Bool} {record : Word → Decoded}
    (h : ∀ s, exec (decodeWord code simplified) s = transact record s) : DecodesTo code simplified record := by
  intro s a rest ha hp
  simp only [step, hp, h]
  exact transact_of_addr (by simpa using ha)

/-- One function of the cursor gives the record of a word in every state, and for a word that is no relative branch the
function is constant (R74). -/
theorem exists_decodesTo (code : Word) (simplified : Bool) :
    ∃ record, DecodesTo code simplified record ∧
      (¬RelativeBranch defaultConfig code → ∀ a a', record a = record a') := by
  by_cases hrel : RelativeBranch defaultConfig code
  · obtain ⟨record, hexec, _⟩ := exec_is_transaction (decodeWord code simplified)
    exact ⟨record, decodesTo_of_exec hexec, fun h => absurd hrel h⟩
  · obtain ⟨d, hexec⟩ := addressFree_decodeWord hrel simplified
    exact ⟨fun _ => d, decodesTo_of_exec hexec, fun _ _ _ => rfl⟩

/-- A `LoadAddr` and a `Decode` after it are two steps, whatever the cursor held before (R11, R70). -/
theorem DecodesTo.run_loadAddr_decode {code : Word} {simplified : Bool} {record : Word → Decoded}
    (h : DecodesTo code simplified record) {s : State} {a : Word} {rest : List HostAction}
    (hp : s.pending = .loadAddr a :: .decode code simplified :: rest) (k : Nat) :
    Host.Core.run core (k + 2) s =
      Host.Core.run core k (((s.withAddr a).withPending rest).delivered a (record a)) := by
  have hload : step s = .next ((s.withPending (.decode code simplified :: rest)).withAddr a) := by
    simp only [step, hp, loadAddr_eq]
  rw [run_succ_of_step (k + 1) hload, run_succ_of_step k (h rfl rfl)]
  rfl

/-- Two `Decode` actions are two steps, the second with the cursor that the first has advanced (R73). -/
theorem DecodesTo.run_decode_decode {code : Word} {simplified : Bool} {record : Word → Decoded}
    (h : DecodesTo code simplified record) {s : State} {a : Word} {rest : List HostAction} (ha : s.addr = some a)
    (hp : s.pending = .decode code simplified :: .decode code simplified :: rest) :
    Host.Core.run core 2 s =
      .next (((s.delivered a (record a)).withPending rest).delivered (a + 4) (record (a + 4))) := by
  rw [run_succ_of_step 1 (h ha hp), run_succ_of_step 0 (h rfl rfl)]
  rfl

/-- Settles O54: what a `Decode` delivers is a function of the cursor, and it is constant for every word that is no
relative branch. -/
theorem decodingTheSameInputsGivesTheSameText : Obligations.DecodingTheSameInputsGivesTheSameText := by
  refine ⟨fun s s' a code simplified rest rest' ha ha' hp hp' => ?sameInputs,
    fun s a code simplified rest hp => ?addressReset, fun s a code simplified rest ha hp => ?noReset,
    fun cfg _ code addr addr' simplified hne => ?anyParameters⟩
  case sameInputs =>
    obtain ⟨record, hrecord, _⟩ := exists_decodesTo code simplified
    exact ⟨_, _, render (record a), hrecord ha hp, hrecord ha' hp', rfl, rfl, rfl⟩
  case addressReset =>
    obtain ⟨record, hrecord, _⟩ := exists_decodesTo code simplified
    have hfirst := hrecord.run_loadAddr_decode hp
    refine ⟨_, _, render (record a), hfirst 0, (hfirst 2).trans (hrecord.run_loadAddr_decode rfl 0), rfl, rfl, ?_, rfl⟩
    simp
  case noReset =>
    obtain ⟨record, hrecord, hconst⟩ := exists_decodesTo code simplified
    refine ⟨_, render (record a), render (record (a + 4)), hrecord.run_decode_decode ha hp, by simp, fun hne => ?_⟩
    by_contra hrel
    exact hne (congrArg render (hconst hrel a (a + 4)))
  case anyParameters =>
    by_contra hrel
    exact hne (congrArg render (decodeRecord_addr_irrelevant hrel addr addr' simplified))

end Sys2Proof.Machine

/-! PROOFS. Or-immediate (43_immediate.md section 2): its words as the fields of format `FMT_D`, what `H_ORI` answers in
each of its three cases (R85), and which handlers can answer a record with no operand (R83). -/

namespace Sys2Proof.Machine

/-- The encoded word of `nop` (R83). -/
theorem encodeD_opcOri_zero : encodeD opcOri 0 0 0 = 0x60000000#32 := by decide

/-- `nop`'s fields stand in one word only, because a word is its `FMT_D` fields put together (R32, R83). -/
theorem fields_eq_nop_iff (code : Word) :
    opcOf code = opcOri ∧ rsOf code = 0 ∧ raOf code = 0 ∧ immOf code = 0 ↔ code = 0x60000000#32 := by
  constructor
  · rintro ⟨hopc, hrs, hra, himm⟩
    rw [← encodeD_of_fields code, hopc, hrs, hra, himm, encodeD_opcOri_zero]
  · rintro rfl
    decide

/-- The mask of R84 clears the two register fields and keeps the others. -/
theorem ori_mask_eq (code : Word) : code &&& 0xFC00FFFF#32 = encodeD (opcOf code) 0 0 (immOf code) := by
  apply BitVec.eq_of_getLsbD_eq
  intro i hi
  have h : i < 32 := hi
  rw [BitVec.getLsbD_and]
  interval_cases i <;> simp [encodeD, opcOf, immOf]

/-- R84's mask test reads the opcode and the immediate. -/
theorem ori_mask_eq_iff (code : Word) :
    opcOf code = opcOri ∧ immOf code = 0 ↔ code &&& 0xFC00FFFF#32 = 0x60000000#32 := by
  rw [ori_mask_eq, ← encodeD_opcOri_zero]
  constructor
  · rintro ⟨hopc, himm⟩
    rw [hopc, himm]
  · intro heq
    exact ⟨by simpa using congrArg opcOf heq, by simpa using congrArg immOf heq⟩

/-- A word of opcode 24 goes to `H_ORI` (R71). -/
theorem decodeRecord_of_ori {cfg : Config} (facts : ConfigFacts cfg) {code : Word} (hopc : opcOf code = opcOri)
    (addr : Word) (simplified : Bool) : decodeRecord cfg code addr simplified = handleOri code simplified := by
  rw [decodeRecord, hopc, dispatch_opcOri facts]

/-- A word of opcode 31 goes to `H_EXT` (R71). -/
theorem decodeRecord_of_ext {cfg : Config} (facts : ConfigFacts cfg) {code : Word} (hopc : opcOf code = opcExt)
    (addr : Word) (simplified : Bool) : decodeRecord cfg code addr simplified = handleExt cfg code simplified := by
  rw [decodeRecord, hopc, dispatch_opcExt facts]

/-- The three outcomes of `H_ORI`, each with its condition (R82 to R85). -/
theorem handleOri_cases (code : Word) (simplified : Bool) :
    ((rsOf code = 0 ∧ raOf code = 0 ∧ immOf code = 0 ∧ simplified = true) ∧
      handleOri code simplified = ⟨false, "nop", []⟩) ∨
    ((immOf code = 0 ∧ ¬(rsOf code = 0 ∧ raOf code = 0) ∧ simplified = true) ∧
      handleOri code simplified = ⟨false, "mr", [.gpr (raOf code), .gpr (rsOf code)]⟩) ∨
    (¬(immOf code = 0 ∧ simplified = true) ∧
      handleOri code simplified = ⟨false, "ori", [.gpr (rsOf code), .gpr (raOf code), .imm16 (immOf code)]⟩) := by
  unfold handleOri
  dsimp only
  split_ifs with hnop hmr
  · obtain ⟨hra, hrs, himm, hsimp⟩ := hnop
    exact .inl ⟨⟨hrs, hra, himm, hsimp⟩, rfl⟩
  · obtain ⟨himm, hsimp⟩ := hmr
    exact .inr (.inl ⟨⟨himm, fun ⟨hrs, hra⟩ => hnop ⟨hra, hrs, himm, hsimp⟩, hsimp⟩, rfl⟩)
  · exact .inr (.inr ⟨hmr, rfl⟩)

/-- Of the three outcomes `nop` alone has no operand (R83). -/
theorem handleOri_ops_eq_nil_iff (code : Word) (simplified : Bool) :
    (handleOri code simplified).ops = [] ↔
      rsOf code = 0 ∧ raOf code = 0 ∧ immOf code = 0 ∧ simplified = true := by
  obtain ⟨hnop, heq⟩ | ⟨⟨_, hregs, _⟩, heq⟩ | ⟨hori, heq⟩ := handleOri_cases code simplified <;> rw [heq]
  · exact iff_of_true rfl hnop
  · exact iff_of_false (List.cons_ne_nil _ _) fun ⟨hrs, hra, _⟩ => hregs ⟨hrs, hra⟩
  · exact iff_of_false (List.cons_ne_nil _ _) fun ⟨_, _, himm, hsimp⟩ => hori ⟨himm, hsimp⟩

/-- `H_ORI` answers `mr` exactly in its second case (R84). -/
theorem handleOri_mnem_eq_mr_iff (code : Word) (simplified : Bool) :
    (handleOri code simplified).mnem = "mr" ↔
      immOf code = 0 ∧ ¬(rsOf code = 0 ∧ raOf code = 0) ∧ simplified = true := by
  obtain ⟨⟨hrs, hra, _⟩, heq⟩ | ⟨hmr, heq⟩ | ⟨hori, heq⟩ := handleOri_cases code simplified <;> rw [heq]
  · exact iff_of_false (by decide : "nop" ≠ "mr") fun ⟨_, hregs, _⟩ => hregs ⟨hrs, hra⟩
  · exact iff_of_true rfl hmr
  · exact iff_of_false (by decide : "ori" ≠ "mr") fun ⟨himm, _, hsimp⟩ => hori ⟨himm, hsimp⟩

/-- Or-immediate has no record bit, so no `mr.` (R84). -/
theorem handleOri_mnem_ne_mrDot (code : Word) (simplified : Bool) : (handleOri code simplified).mnem ≠ "mr." := by
  obtain ⟨_, heq⟩ | ⟨_, heq⟩ | ⟨_, heq⟩ := handleOri_cases code simplified <;> rw [heq]
  · exact (by decide : "nop" ≠ "mr.")
  · exact (by decide : "mr" ≠ "mr.")
  · exact (by decide : "ori" ≠ "mr.")

/-- The second case as an equation: `mr` with `ra` first (R84). -/
theorem handleOri_eq_mr {code : Word} (himm : immOf code = 0) (hregs : ¬(rsOf code = 0 ∧ raOf code = 0)) :
    handleOri code true = ⟨false, "mr", [.gpr (raOf code), .gpr (rsOf code)]⟩ := by
  obtain ⟨⟨hrs, hra, _⟩, _⟩ | ⟨_, heq⟩ | ⟨hori, _⟩ := handleOri_cases code true
  · exact absurd ⟨hrs, hra⟩ hregs
  · exact heq
  · exact absurd ⟨himm, rfl⟩ hori

/-- The logical family's move-register idiom: extended opcode 444 is its selector and the index of `or` (R137, R139). -/
theorem handleExt_eq_mr (cfg : Config) {code : Word} (hext : extOpcOf code = 444) (hrc : rcOf code = false)
    (hsrc : rsOf code = rbOf code) :
    handleExt cfg code true = ⟨false, "mr", [.gpr (raOf code), .gpr (rsOf code)]⟩ := by
  have hsel : selOf code = selLogical := by
    rw [selOf_eq, hext]
    decide
  have hidx : idx5Of code = idxOr := by
    rw [idx5Of_eq, hext]
    decide
  have hnotSub : selLogical ≠ selSubtract := by decide
  rw [handleExt, hsel, if_neg hnotSub, if_pos rfl, handleLogical, if_pos ⟨hidx, hsrc, rfl⟩, hrc]
  rfl

theorem illegalRecord_ops_ne_nil (code : Word) : (illegalRecord code).ops ≠ [] := List.cons_ne_nil _ _

theorem handleAddi_ops_ne_nil (code : Word) (simplified : Bool) : (handleAddi code simplified).ops ≠ [] := by
  unfold handleAddi
  dsimp only
  split_ifs <;> exact List.cons_ne_nil _ _

theorem handleSubtract_ops_ne_nil (cfg : Config) (code : Word) : (handleSubtract cfg code).ops ≠ [] := by
  unfold handleSubtract
  split
  · exact illegalRecord_ops_ne_nil code
  · dsimp only
    split_ifs <;> exact List.cons_ne_nil _ _

theorem handleLogical_ops_ne_nil (cfg : Config) (code : Word) (simplified : Bool) :
    (handleLogical cfg code simplified).ops ≠ [] := by
  unfold handleLogical
  split
  · exact List.cons_ne_nil _ _
  · split <;> exact List.cons_ne_nil _ _

theorem handleLoadStore_ops_ne_nil (cfg : Config) (code : Word) : (handleLoadStore cfg code).ops ≠ [] := by
  unfold handleLoadStore
  cases rom cfg.ldstRom (idx5Of code).toNat with
  | none =>
    dsimp only
    split_ifs <;> exact illegalRecord_ops_ne_nil code
  | some m =>
    dsimp only
    split_ifs <;> exact List.cons_ne_nil _ _

theorem handleTierB_ops_ne_nil (code : Word) : (handleTierB code).ops ≠ [] := by
  unfold handleTierB handleTw
  split_ifs <;> exact List.cons_ne_nil _ _

theorem handleExt_ops_ne_nil (cfg : Config) (code : Word) (simplified : Bool) :
    (handleExt cfg code simplified).ops ≠ [] := by
  unfold handleExt
  split_ifs
  · exact handleSubtract_ops_ne_nil cfg code
  · exact handleLogical_ops_ne_nil cfg code simplified
  · exact handleLoadStore_ops_ne_nil cfg code
  · exact handleTierB_ops_ne_nil code

/-- A word of any opcode but or-immediate's has an operand, by the handler the opcode selects (R83). -/
theorem decodeRecord_ops_ne_nil {cfg : Config} {code : Word} (hopc : opcOf code ≠ opcOri) (addr : Word)
    (simplified : Bool) : (decodeRecord cfg code addr simplified).ops ≠ [] := by
  unfold decodeRecord
  cases hd : dispatch cfg (opcOf code) with
  | addi => exact handleAddi_ops_ne_nil code simplified
  | ori => exact absurd (opc_of_dispatch_ori hd) hopc
  | branch => exact List.cons_ne_nil _ _
  | ext => exact handleExt_ops_ne_nil cfg code simplified
  | illegal => exact illegalRecord_ops_ne_nil code

/-- The empty operand list belongs to one word and one setting (R83). -/
theorem decodeRecord_ops_eq_nil_iff {cfg : Config} (facts : ConfigFacts cfg) (code addr : Word) (simplified : Bool) :
    (decodeRecord cfg code addr simplified).ops = [] ↔ code = 0x60000000#32 ∧ simplified = true := by
  by_cases hopc : opcOf code = opcOri
  · rw [decodeRecord_of_ori facts hopc, handleOri_ops_eq_nil_iff, ← fields_eq_nop_iff]
    simp [hopc, and_assoc]
  · refine iff_of_false (decodeRecord_ops_ne_nil hopc addr simplified) fun ⟨hcode, _⟩ => hopc ?_
    obtain ⟨hori, _⟩ := (fields_eq_nop_iff code).2 hcode
    exact hori

/-- Settles O31: only `H_ORI` can answer a record with no operand, and its condition fixes every field of the word. -/
theorem nopIsTheOneWordWithNoOperands : Obligations.NopIsTheOneWordWithNoOperands := by
  intro cfg hok
  have facts := configFacts hok
  refine ⟨fun addr => ?nop, fun code addr simplified =>
    ⟨decodeRecord_ops_eq_nil_iff facts code addr simplified, fields_eq_nop_iff code⟩⟩
  case nop =>
    have hrecord : decodeRecord cfg 0x60000000 addr true = ⟨false, "nop", []⟩ := by
      rw [decodeRecord_of_ori facts (by decide)]
      decide
    exact ⟨hrecord, by rw [decodeText, hrecord]; rfl⟩

/-- Settles O32: the second case of `H_ORI` and the idiom of the logical family answer the same record, and R84's mask
keeps exactly the opcode and the immediate. -/
theorem moveFromOrImmediatePrintsRaFirst : Obligations.MoveFromOrImmediatePrintsRaFirst := by
  intro cfg hok
  have facts := configFacts hok
  refine ⟨fun code addr hopc himm hregs => ?record, ori_mask_eq_iff, fun code addr simplified hopc => ?mnemonic,
    fun addr => ?examples⟩
  case record =>
    have hmr : decodeRecord cfg code addr true = ⟨false, "mr", [.gpr (raOf code), .gpr (rsOf code)]⟩ := by
      rw [decodeRecord_of_ori facts hopc, handleOri_eq_mr himm hregs]
    refine ⟨hmr, fun code' addr' hopc' hext hrc hsrc hra hrs => ?_⟩
    rw [hmr, decodeRecord_of_ext facts hopc', handleExt_eq_mr cfg hext hrc hsrc, hra, hrs]
  case mnemonic =>
    rw [decodeRecord_of_ori facts hopc]
    exact ⟨handleOri_mnem_ne_mrDot code simplified, handleOri_mnem_eq_mr_iff code simplified⟩
  case examples =>
    constructor <;> rw [decodeText, decodeRecord_of_ori facts (by decide)] <;> decide

end Sys2Proof.Machine

/-! PROOFS. The logical family (47_ext_logic.md): what `LOGICFAM` answers in each of its three cases (R130), and `or`,
the one extended opcode at which the move-register idiom can stand (R137, R139). -/

namespace Sys2Proof.Machine

/-- The five upper bits of the extended opcode, cut out, are its value shifted right by five (R31). -/
theorem idx5Of_eq_shift (code : Word) : idx5Of code = (extOpcOf code >>> 5).setWidth 5 := by
  rw [idx5Of_eq]
  apply BitVec.eq_of_getLsbD_eq
  intro i hi
  simp [hi]

/-- The suffix of a family without an overflow-enable bit (R60). -/
theorem suffix_false (rc : Bool) : suffix false rc = if rc then "." else "" := by
  cases rc <;> rfl

/-- `DISPATCH` reads the opcode parameters only, so any logical ROM may stand beside them (R71). -/
theorem dispatch_with_logicRom (cfg : Config) (T : Rom) (opc : BitVec 6) :
    dispatch { cfg with logicRom := T } opc = dispatch cfg opc := rfl

/-- A word that `DISPATCH` hands to `H_EXT` and whose selector is the logical family's goes to `LOGICFAM` (R101); the
ROM contents take no part in that. -/
theorem decodeRecord_of_logical {cfg : Config} {code : Word} (hd : dispatch cfg (opcOf code) = .ext)
    (hsel : selOf code = selLogical) (addr : Word) (simplified : Bool) :
    decodeRecord cfg code addr simplified = handleLogical cfg code simplified := by
  have hnotSub : selLogical ≠ selSubtract := by decide
  rw [decodeRecord, hd]
  dsimp only
  rw [handleExt, hsel, if_neg hnotSub, if_pos rfl]

section logicalCases
variable (cfg : Config) {code : Word} {simplified : Bool}

/-- First case: the idiom, before the ROM is read (R139). -/
theorem handleLogical_of_idiom (h : idx5Of code = idxOr ∧ rsOf code = rbOf code ∧ simplified = true) :
    handleLogical cfg code simplified =
      ⟨false, if rcOf code then "mr." else "mr", [.gpr (raOf code), .gpr (rsOf code)]⟩ := by
  rw [handleLogical, if_pos h]

/-- Second case: no idiom, and an index with no entry (R130). -/
theorem handleLogical_of_rom_none (h : ¬(idx5Of code = idxOr ∧ rsOf code = rbOf code ∧ simplified = true))
    (hrom : rom cfg.logicRom (idx5Of code).toNat = none) :
    handleLogical cfg code simplified = illegalRecord code := by
  rw [handleLogical, if_neg h, hrom]

/-- Third case: no idiom, and an index with an entry; `ra` is printed first (R130). -/
theorem handleLogical_of_rom_some (h : ¬(idx5Of code = idxOr ∧ rsOf code = rbOf code ∧ simplified = true))
    {m : String} (hrom : rom cfg.logicRom (idx5Of code).toNat = some m) :
    handleLogical cfg code simplified =
      ⟨false, m ++ (if rcOf code then "." else ""), [.gpr (raOf code), .gpr (rsOf code), .gpr (rbOf code)]⟩ := by
  rw [handleLogical, if_neg h, hrom, suffix_false]

end logicalCases

/-- The default logical ROM ends in sixteen empty entries (R17, R130 (b)). -/
theorem rom_defaultLogicRom_of_ge {i : Nat} (h : 16 ≤ i) : rom defaultLogicRom i = none := by
  rw [rom, defaultLogicRom, List.getElem?_append_right h, List.getElem?_replicate]
  split_ifs <;> rfl

/-- Settles O37: the word goes to `LOGICFAM`, and the clauses are its three cases. -/
theorem logicalFamilyFollowsItsRom : Obligations.LogicalFamilyFollowsItsRom := by
  intro cfg hok code addr simplified hopc hsel
  have hd : dispatch cfg (opcOf code) = .ext := hopc ▸ dispatch_opcExt (configFacts hok)
  rw [decodeRecord_of_logical hd hsel]
  exact ⟨idx5Of_eq_shift code, handleLogical_of_idiom cfg,
    fun hno => ⟨handleLogical_of_rom_none cfg hno, fun _ => handleLogical_of_rom_some cfg hno⟩,
    rom_eq_none_of_length_le, rom_defaultLogicRom_of_ge⟩

/-- The mask of R137 keeps the primary opcode. -/
theorem opcOf_or_mask (code : Word) : opcOf (code &&& 0xFC0007FE#32) = opcOf code := by
  have hones : (0xFC0007FE#32).extractLsb' 26 6 = BitVec.allOnes 6 := by decide
  rw [opcOf, BitVec.extractLsb'_and, hones, BitVec.and_allOnes, opcOf]

/-- The mask of R137 keeps the extended opcode. -/
theorem extOpcOf_or_mask (code : Word) : extOpcOf (code &&& 0xFC0007FE#32) = extOpcOf code := by
  have hones : (0xFC0007FE#32).extractLsb' 1 10 = BitVec.allOnes 10 := by decide
  rw [extOpcOf, BitVec.extractLsb'_and, hones, BitVec.and_allOnes, extOpcOf]

/-- The mask of R137 clears the three register fields and the record bit of a word of the extended group. -/
theorem or_mask_encodeX (rs ra rb : RegNum) (e : BitVec 10) (rc : Bool) :
    encodeX rs ra rb e rc &&& 0xFC0007FE#32 = encodeX 0 0 0 e false := by
  apply BitVec.eq_of_getLsbD_eq
  intro i hi
  have h : i < 32 := hi
  rw [BitVec.getLsbD_and]
  interval_cases i <;> simp [encodeX, opcExt]

/-- R137's mask test reads the two opcodes of `or`. -/
theorem or_mask_eq_iff (code : Word) :
    opcOf code = opcExt ∧ extOpcOf code = 444 ↔ code &&& 0xFC0007FE#32 = 0x7C000378#32 := by
  constructor
  · rintro ⟨hopc, hext⟩
    rw [← encodeX_of_fields hopc, hext, or_mask_encodeX]
    decide
  · intro heq
    rw [← opcOf_or_mask, ← extOpcOf_or_mask, heq]
    decide

/-- Extended opcode 444 is the logical family's selector below the index of `or` (R137). -/
theorem selOf_idx5Of_of_or {code : Word} (hext : extOpcOf code = 444) :
    selOf code = selLogical ∧ idx5Of code = idxOr := by
  rw [selOf_eq, idx5Of_eq, hext]
  decide

/-- `or` with equal sources is the move, whatever the ROM holds (R139). -/
theorem decodeRecord_or_of_eq {cfg : Config} {code : Word} (hd : dispatch cfg (opcOf code) = .ext)
    (hext : extOpcOf code = 444) (hsrc : rsOf code = rbOf code) (addr : Word) :
    decodeRecord cfg code addr true =
      ⟨false, if rcOf code then "mr." else "mr", [.gpr (raOf code), .gpr (rsOf code)]⟩ := by
  obtain ⟨hsel, hidx⟩ := selOf_idx5Of_of_or hext
  rw [decodeRecord_of_logical hd hsel, handleLogical_of_idiom cfg ⟨hidx, hsrc, rfl⟩]

/-- `or` with different sources, or without the simplified mnemonics, is the ROM's entry `or` (R137). -/
theorem decodeRecord_or_of_ne {cfg : Config} (facts : ConfigFacts cfg) {code : Word} (hopc : opcOf code = opcExt)
    (hext : extOpcOf code = 444) {simplified : Bool} (hno : rsOf code ≠ rbOf code ∨ simplified = false) (addr : Word) :
    decodeRecord cfg code addr simplified =
      ⟨false, "or" ++ (if rcOf code then "." else ""), [.gpr (raOf code), .gpr (rsOf code), .gpr (rbOf code)]⟩ := by
  obtain ⟨hsel, hidx⟩ := selOf_idx5Of_of_or hext
  have hnotIdiom : ¬(idx5Of code = idxOr ∧ rsOf code = rbOf code ∧ simplified = true) := by
    rintro ⟨_, hsrc, rfl⟩
    simp [hsrc] at hno
  have hrom : rom cfg.logicRom (idx5Of code).toNat = some "or" := hidx ▸ facts.or_entry
  rw [decodeRecord_of_logical (hopc ▸ dispatch_opcExt facts) hsel, handleLogical_of_rom_some cfg hnotIdiom hrom]

/-- Settles O38: the idiom does not consult the ROM, index 13 of every legal logical ROM holds `or`, and the record of
`mr` is or-immediate's (O32). -/
theorem orReadsAsMoveOnlyWithEqualSources : Obligations.OrReadsAsMoveOnlyWithEqualSources := by
  intro cfg hok
  have facts := configFacts hok
  obtain ⟨hmove, _, hori, _⟩ := moveFromOrImmediatePrintsRaFirst cfg hok
  refine ⟨or_mask_eq_iff, fun code addr hopc hext => ⟨fun hsrc T => ?idiom, fun simplified hno => ?threeOperands⟩,
    fun code code' addr addr' hopc hext hrc hsrc hopc' himm' hregs' hra hrs => ?sameText,
    fun code addr simplified hopc => (hori code addr simplified hopc).1, fun addr => ?examples⟩
  case idiom =>
    have hd : dispatch { cfg with logicRom := T } (opcOf code) = .ext := by
      rw [dispatch_with_logicRom]
      exact hopc ▸ dispatch_opcExt facts
    exact decodeRecord_or_of_eq hd hext hsrc addr
  case threeOperands => exact decodeRecord_or_of_ne facts hopc hext hno addr
  case sameText =>
    obtain ⟨_, hsame⟩ := hmove code' addr' hopc' himm' hregs'
    exact congrArg render (hsame code addr hopc hext hrc hsrc hra.symm hrs.symm)
  case examples =>
    have hd : dispatch cfg opcExt = .ext := dispatch_opcExt facts
    refine ⟨?_, ?_, ?_, ?_, ?_, fun simplified => ⟨?_, ?_⟩⟩ <;> unfold decodeText
    iterate 4
      rw [decodeRecord_or_of_eq hd (by decide) (by decide)]
      decide
    · rw [decodeRecord_or_of_ne facts (by decide) (by decide) (.inr rfl)]
      decide
    iterate 2
      rw [decodeRecord_or_of_ne facts (by decide) (by decide) (.inl (by decide))]
      decide

end Sys2Proof.Machine

/-! PROOFS. The fallback of tier B (R181): a word of the extended group outside the three families goes to `TIERB`,
which accepts one extended opcode. -/

namespace Sys2Proof.Machine

/-- A word of opcode 31 whose selector is no family's goes to `TIERB` (R101, R102). -/
theorem decodeRecord_of_tierB {cfg : Config} (facts : ConfigFacts cfg) {code : Word} (hopc : opcOf code = opcExt)
    (hsub : selOf code ≠ selSubtract) (hlogic : selOf code ≠ selLogical) (hldst : selOf code ≠ selLoadStore)
    (addr : Word) (simplified : Bool) : decodeRecord cfg code addr simplified = handleTierB code := by
  rw [decodeRecord_of_ext facts hopc, handleExt, if_neg hsub, if_neg hlogic, if_neg hldst]

/-- `TIERB` accepts no extended opcode but `tw`'s, on all ten bits (R102, R181). -/
theorem handleTierB_of_ne {code : Word} (hext : extOpcOf code ≠ extOpcTw) :
    handleTierB code = illegalRecord code := by
  rw [handleTierB, if_neg hext]

/-- Outside the three families every extended opcode but `tw`'s is `ILLEGAL(code)` (R181). -/
theorem decodeRecord_of_fallback {cfg : Config} (facts : ConfigFacts cfg) {code addr : Word} {simplified : Bool}
    (hopc : opcOf code = opcExt) (hsub : selOf code ≠ selSubtract) (hlogic : selOf code ≠ selLogical)
    (hldst : selOf code ≠ selLoadStore) (hext : extOpcOf code ≠ extOpcTw) :
    decodeRecord cfg code addr simplified = illegalRecord code := by
  rw [decodeRecord_of_tierB facts hopc hsub hlogic hldst, handleTierB_of_ne hext]

/-- The extended opcodes that R181 makes illegal: the selector is no family's, and the value is not `tw`'s. -/
def isFallbackExtOpc (e : Nat) : Bool :=
  e % 32 != 0x08 && e % 32 != 0x1C && e % 32 != 0x17 && e != 4

/-- Above the first block of 32 values only the selector counts, so each further block is like the others. -/
theorem isFallbackExtOpc_block (n e : Nat) :
    isFallbackExtOpc (32 * (n + 1) + e) = (e % 32 != 0x08 && e % 32 != 0x1C && e % 32 != 0x17) := by
  have hne : (32 * (n + 1) + e != 4) = true := by
    rw [bne_iff_ne]
    omega
  rw [isFallbackExtOpc, Nat.mul_add_mod, hne, Bool.and_true]

/-- Three of every 32 values are a family's selector, and `tw`'s value stands in the first block (R181). -/
theorem countP_isFallbackExtOpc (n : Nat) : (List.range (32 * (n + 1))).countP isFallbackExtOpc = 29 * n + 28 := by
  induction n with
  | zero => decide
  | succ n ih =>
    have hblock : (List.range 32).countP (isFallbackExtOpc ∘ (32 * (n + 1) + ·)) = 29 := by
      simp only [Function.comp_def, isFallbackExtOpc_block]
      decide
    rw [Nat.mul_succ, List.range_add, List.countP_append, List.countP_map, ih, hblock]
    omega

/-- Settles O40: the word goes to `TIERB`, which refuses it, and R181's words are four of these; the count is that of 32
blocks of selectors. -/
theorem tierBAcceptsOnlyTheTrapWord : Obligations.TierBAcceptsOnlyTheTrapWord := by
  intro cfg hok
  have facts := configFacts hok
  refine ⟨fun _ _ _ => decodeRecord_of_fallback facts, countP_isFallbackExtOpc 31, fun addr simplified => ?examples⟩
  case examples =>
    refine ⟨?_, ?_, ?_, ?_⟩
    all_goals
      rw [decodeText, decodeRecord_of_fallback facts (by decide) (by decide) (by decide) (by decide) (by decide),
        render_illegalRecord]
      decide

end Sys2Proof.Machine

/-! PROOFS. The state and its step (10_state.md, 42_dispatch.md section 1): reset, the host's `LoadAddr`, the one refusal,
and the invariant between host actions. -/

namespace Sys2Proof.Machine

/-- The decode transaction establishes the invariant's clauses on `OUT` afresh; a good record's text joins the earlier
texts (R11, R53, R63). -/
theorem State.Inv.delivered {s : State} (h : s.Inv) (a : Word) {d : Decoded} (hd : GoodRecord d) :
    (s.delivered a d).Inv := by
  obtain ⟨_, _, _, htexts⟩ := h
  refine ⟨fun _ => by simp, fun d' hd' => ?_, by simp, fun t ht => ?_⟩
  · rw [State.delivered_out, Option.some.injEq] at hd'
    exact hd' ▸ hd.wf
  · rw [State.delivered_texts, List.mem_append, List.mem_singleton] at ht
    obtain hold | rfl := ht
    · exact htexts t hold
    · exact hd.text

/-- `LoadAddr` writes the cursor, of which the invariant asks only that it be written (R11, R222). -/
theorem State.Inv.withAddr {s : State} (h : s.Inv) (a : Word) : (s.withAddr a).Inv := by
  obtain ⟨_, hout, hlast, htexts⟩ := h
  exact ⟨fun _ => by simp, hout, hlast, htexts⟩

/-- The invariant does not speak of the actions to come. -/
theorem State.Inv.withPending {s : State} (h : s.Inv) (actions : List HostAction) : (s.withPending actions).Inv := h

/-- Settles O3: a step is nothing, a `LoadAddr` or one decode transaction with a good record. -/
theorem everyStepKeepsTheStateInvariant : Obligations.EveryStepKeepsTheStateInvariant := by
  intro s t hinv hstep
  obtain ⟨_, rfl⟩ | ⟨a, rest, _, rfl⟩ | ⟨_, _, rest, a, d, _, _, hgood, rfl⟩ := step_next_cases hstep
  · exact hinv
  · exact (hinv.withPending rest).withAddr a
  · exact (hinv.withPending rest).delivered a hgood

/-- An instruction is refused only for the unwritten cursor, because it is one decode transaction (R20). -/
theorem exec_eq_refused_iff {i : Instr} {s : State} {r : Refusal} :
    exec i s = .refused r ↔ s.addr = none ∧ r = .addrUnwritten := by
  obtain ⟨h, hexec, _⟩ := exec_is_transaction i
  rw [hexec, transact_eq_refused_iff]

/-- Settles O4: of the three kinds of step only a `Decode` can be refused, and `Fault` has no constructor. -/
theorem decodeIsRefusedExactlyWhileAddrIsUnwritten : Obligations.DecodeIsRefusedExactlyWhileAddrIsUnwritten := by
  refine ⟨fun s r => ?refusal, fun _ r => nomatch r⟩
  case refusal =>
    unfold step
    split
    · next hp => simp [idle, hp]
    · next hp => simp [loadAddr, hp]
    · next hp => simp [exec_eq_refused_iff, hp, and_comm]

/-- Settles O1: each clause is what `State.reset` writes out. -/
theorem resetLeavesCursorAndOutputUnwritten : Obligations.ResetLeavesCursorAndOutputUnwritten :=
  ⟨State.reset_addr, State.reset_out, State.reset_pending, State.reset_texts,
    readAddr_eq_error_iff.2 ⟨State.reset_addr, rfl⟩, readOut_eq_error_iff.2 ⟨State.reset_out, rfl⟩⟩

/-- Settles O2: `OUT` is unwritten and no text has been returned, so no clause has anything to ask. -/
theorem resetMeetsTheStateInvariant : Obligations.ResetMeetsTheStateInvariant := by
  refine ⟨fun hout => absurd State.reset_out hout, fun d hd => ?_, rfl, fun t ht => ?_⟩
  · rw [State.reset_out] at hd
    cases hd
  · rw [State.reset_texts] at ht
    cases ht

/-- Settles O5, with the next state as the update that `LoadAddr` is. -/
theorem loadAddrWritesTheCursorAndNothingElse : Obligations.LoadAddrWritesTheCursorAndNothingElse := by
  intro s a rest hp
  refine ⟨(s.withPending rest).withAddr a, ?_, rfl, readAddr_eq_ok_iff.2 (State.withAddr_addr _ a)⟩
  rw [step, hp]
  exact loadAddr_eq a _

/-- Settles O6. -/
theorem stepWithNoActionHoldsTheState : Obligations.StepWithNoActionHoldsTheState := by
  intro s hp
  rw [step, hp]
  exact idle_eq s

end Sys2Proof.Machine

/-! PROOFS. The illegal outcome under both settings and the list of its causes (R40, 30_encoding.md sections 6 and 7), the
form of every record (R53), and the bounds-checked look-up of the mnemonic ROMs (R18). -/

namespace Sys2Proof.Machine

/-- A word that meets its condition is `ILLEGAL(code)`. -/
theorem IllegalExactlyWhen.eq_of_cond {cond : Prop} {code : Word} {d : Decoded}
    (h : IllegalExactlyWhen cond code d) (hcond : cond) : d = illegalRecord code :=
  h.eq_illegalRecord (h.illegal_iff.2 hcond)

/-- In the extended group the list of causes agrees with the record, family by family (R40). -/
theorem isSome_extIllegalCause_iff (cfg : Config) (code : Word) (simplified : Bool) :
    (extIllegalCause cfg code simplified).isSome = true ↔ (handleExt cfg code simplified).illegal = true := by
  unfold extIllegalCause handleExt
  by_cases hsub : selOf code = selSubtract
  · rw [if_pos hsub, if_pos hsub, (illegalExactlyWhen_handleSubtract cfg code).illegal_iff]
    split_ifs <;> simp_all
  rw [if_neg hsub, if_neg hsub]
  by_cases hlogic : selOf code = selLogical
  · rw [if_pos hlogic, if_pos hlogic, (illegalExactlyWhen_handleLogical cfg code simplified).illegal_iff]
    split_ifs <;> simp_all [isMoveIdiom]
  rw [if_neg hlogic, if_neg hlogic]
  by_cases hldst : selOf code = selLoadStore
  · rw [if_pos hldst, if_pos hldst, (illegalExactlyWhen_handleLoadStore cfg code).illegal_iff]
    split_ifs <;> simp_all
  rw [if_neg hldst, if_neg hldst, (illegalExactlyWhen_handleTierB code).illegal_iff]
  split_ifs <;> simp_all

/-- A word has a cause exactly when its record is illegal (R40: "Everything not listed is accepted"). -/
theorem isSome_illegalCause_iff (cfg : Config) (code addr : Word) (simplified : Bool) :
    (illegalCause cfg code simplified).isSome = true ↔ (decodeRecord cfg code addr simplified).illegal = true := by
  unfold illegalCause decodeRecord
  cases dispatch cfg (opcOf code) with
  | addi => simp [(illegalExactlyWhen_handleAddi code simplified).illegal_iff]
  | ori => simp [(illegalExactlyWhen_handleOri code simplified).illegal_iff]
  | branch => simp [(illegalExactlyWhen_handleBranch code addr).illegal_iff]
  | ext => exact isSome_extIllegalCause_iff cfg code simplified
  | illegal => simp [illegalRecord]

/-- The index of the move-register idiom has an entry, so no word is illegal for want of the idiom (R137, U16). -/
theorem extIllegal_setting_iff {cfg : Config} (facts : ConfigFacts cfg) (code : Word) :
    ExtIllegal cfg code true ↔ ExtIllegal cfg code false := by
  have hlogic : (¬(idx5Of code = 13 ∧ rsOf code = rbOf code ∧ true = true) ∧
      rom cfg.logicRom (idx5Of code).toNat = none) ↔
      (¬(idx5Of code = 13 ∧ rsOf code = rbOf code ∧ false = true) ∧
        rom cfg.logicRom (idx5Of code).toNat = none) := by
    refine and_congr_left fun hnone => iff_of_true (fun ⟨hidx, _⟩ => ?_) (by simp)
    have hor : rom cfg.logicRom (idx5Of code).toNat = some "or" := hidx ▸ facts.or_entry
    rw [hnone] at hor
    cases hor
  unfold ExtIllegal
  rw [hlogic]

/-- Settles O29: only the logical family's condition mentions `simplified`, and index 13 of its ROM holds `or`. -/
theorem illegalityIsTheSameUnderBothSettings : Obligations.IllegalityIsTheSameUnderBothSettings := by
  intro cfg hok code addr addr'
  refine ⟨?settings, fun simplified => Bool.eq_iff_iff.2 (isSome_illegalCause_iff cfg code addr simplified)⟩
  case settings =>
    rw [Bool.eq_iff_iff, (illegalExactlyWhen_decodeRecord hok code addr true).illegal_iff,
      (illegalExactlyWhen_decodeRecord hok code addr' false).illegal_iff]
    unfold WordIllegal
    rw [extIllegal_setting_iff (configFacts hok)]

theorem handleSubtract_ops_length_le (cfg : Config) (code : Word) : (handleSubtract cfg code).ops.length ≤ 3 := by
  unfold handleSubtract
  split
  · simp [illegalRecord]
  · dsimp only
    split_ifs <;> simp [illegalRecord]

theorem handleLogical_ops_length_le (cfg : Config) (code : Word) (simplified : Bool) :
    (handleLogical cfg code simplified).ops.length ≤ 3 := by
  unfold handleLogical
  split
  · simp
  · split <;> simp [illegalRecord]

theorem handleLoadStore_ops_length_le (cfg : Config) (code : Word) : (handleLoadStore cfg code).ops.length ≤ 3 := by
  unfold handleLoadStore
  cases rom cfg.ldstRom (idx5Of code).toNat with
  | none =>
    dsimp only
    split_ifs <;> simp [illegalRecord]
  | some m =>
    dsimp only
    split_ifs <;> simp [illegalRecord]

theorem handleTierB_ops_length_le (code : Word) : (handleTierB code).ops.length ≤ 3 := by
  unfold handleTierB handleTw
  split_ifs <;> simp [illegalRecord]

theorem handleExt_ops_length_le (cfg : Config) (code : Word) (simplified : Bool) :
    (handleExt cfg code simplified).ops.length ≤ 3 := by
  unfold handleExt
  split_ifs
  · exact handleSubtract_ops_length_le cfg code
  · exact handleLogical_ops_length_le cfg code simplified
  · exact handleLoadStore_ops_length_le cfg code
  · exact handleTierB_ops_length_le code

theorem handleAddi_ops_length_le (code : Word) (simplified : Bool) : (handleAddi code simplified).ops.length ≤ 3 := by
  unfold handleAddi
  dsimp only
  split_ifs <;> simp

theorem handleOri_ops_length_le (code : Word) (simplified : Bool) : (handleOri code simplified).ops.length ≤ 3 := by
  obtain ⟨_, heq⟩ | ⟨_, heq⟩ | ⟨_, heq⟩ := handleOri_cases code simplified <;> simp [heq]

/-- No handler answers more than three operands (R53). -/
theorem decodeRecord_ops_length_le (cfg : Config) (code addr : Word) (simplified : Bool) :
    (decodeRecord cfg code addr simplified).ops.length ≤ 3 := by
  unfold decodeRecord
  cases dispatch cfg (opcOf code) with
  | addi => exact handleAddi_ops_length_le code simplified
  | ori => exact handleOri_ops_length_le code simplified
  | branch => simp [handleBranch]
  | ext => exact handleExt_ops_length_le cfg code simplified
  | illegal => simp [illegalRecord]

/-- Settles O30: the bounds handler by handler, and an illegal record is `ILLEGAL` of the word decoded. -/
theorem everyRecordIsWellFormed : Obligations.EveryRecordIsWellFormed := by
  intro cfg hok code addr simplified
  have hrecord := illegalExactlyWhen_decodeRecord hok code addr simplified
  have hillegal : (decodeRecord cfg code addr simplified).illegal = true →
      decodeRecord cfg code addr simplified = illegalRecord code := hrecord.eq_illegalRecord
  refine ⟨decodeRecord_mnem_ne_empty (configFacts hok) code addr simplified,
    decodeRecord_ops_length_le cfg code addr simplified, ⟨fun hill => ⟨code, hillegal hill⟩, ?bit⟩, fun w hw => ?word⟩
  case bit =>
    rintro ⟨w, hw⟩
    rw [hw]
  case word =>
    have heq : illegalRecord w = illegalRecord code := hw.symm.trans (hillegal (by rw [hw]))
    simpa [illegalRecord] using heq

/-- The look-up answers what stands at the index (R18). -/
theorem rom_of_getElem? {T : Rom} {i : Nat} {e : Option String} (h : T[i]? = some e) : rom T i = e := by
  rw [rom, h]

/-- The letters of a ROM entry are lower-case, so none of them is the suffix point (R18). -/
theorem romEntry_letters {m : String} (h : romEntryOk (some m) = true) :
    ∀ c ∈ m.toList, 'a' ≤ c ∧ c ≤ 'z' ∧ c ≠ '.' := by
  simp only [romEntryOk, Bool.and_eq_true, List.all_eq_true, decide_eq_true_eq] at h
  obtain ⟨_, hletters⟩ := h
  intro c hc
  obtain ⟨hlow, hhigh⟩ := hletters c hc
  refine ⟨hlow, hhigh, ?_⟩
  rintro rfl
  exact absurd hlow (by decide)

/-- A family whose look-up answers nothing is illegal (R18, R40). -/
theorem extIllegal_of_rom_none {cfg : Config} {code : Word} {simplified : Bool}
    (h : (selOf code = 0x08 ∧ rom cfg.subRom (idx4Of code).toNat = none) ∨
      (selOf code = 0x1C ∧ ¬(idx5Of code = 13 ∧ rsOf code = rbOf code ∧ simplified = true) ∧
        rom cfg.logicRom (idx5Of code).toNat = none) ∨
      (selOf code = 0x17 ∧ rom cfg.ldstRom (idx5Of code).toNat = none)) : ExtIllegal cfg code simplified := by
  unfold ExtIllegal
  obtain hsub | hlogic | hldst := h
  · exact .inl hsub
  · exact .inr (.inr (.inl hlogic))
  · exact .inr (.inr (.inr (.inr (.inr (.inl hldst)))))

/-- No mnemonic of the default subtract ROM ends in the suffix letter (R60). -/
theorem getLast?_of_mem_defaultSubRom {m : String} (h : some m ∈ defaultSubRom) : m.toList.getLast? ≠ some 'o' := by
  have hall : ∀ e ∈ defaultSubRom, ∀ m ∈ e, m.toList.getLast? ≠ some 'o' := by decide
  exact hall _ h m rfl

/-- Settles O39: the look-up's three cases, the conditions IL2, IL4 and IL7, and what R18 asks of the entries. -/
theorem romLookupIsBoundsChecked : Obligations.RomLookupIsBoundsChecked := by
  refine ⟨fun T i => ⟨rom_eq_none_of_length_le, rom_of_getElem?, fun m => rom_of_getElem?⟩,
    fun cfg hok => ⟨fun code addr simplified hopc hnone => ?illegal, fun m hm => ?entries⟩,
    fun m => getLast?_of_mem_defaultSubRom⟩
  case illegal =>
    exact (illegalExactlyWhen_decodeRecord hok code addr simplified).eq_of_cond
      (.inr ⟨hopc, extIllegal_of_rom_none hnone⟩)
  case entries =>
    have facts := configFacts hok
    have hentry : romEntryOk (some m) = true := by
      obtain hsub | hlogic | hldst := hm
      · exact facts.sub_entries _ hsub
      · exact facts.logic_entries _ hlogic
      · exact facts.ldst_entries _ hldst
    exact ⟨romEntry_ne_empty hentry, romEntry_letters hentry⟩

end Sys2Proof.Machine

/-! PROOFS. What each instruction delivers (43 to 49, 42_dispatch.md section 3): its meaning is one decode transaction, and
the transaction delivers the record of its rule. -/

namespace Sys2Proof.Machine

/-- An instruction that is one decode transaction around `record` delivers `record`, with the whole next state that of
the transaction (R70, R73). -/
theorem Delivers.of_exec {i : Instr} {record : Word → Decoded} (h : ∀ s, exec i s = transact record s) :
    Delivers i record := fun s _ ha => (h s).trans (transact_of_addr ha)

/-- Settles O16, with the record of each rule as its meaning writes it. -/
theorem immediateInstructionsDeliverTheirRecords : Obligations.ImmediateInstructionsDeliverTheirRecords := by
  intro rd rs ra imm
  exact ⟨.of_exec fun _ => rfl, .of_exec fun _ => rfl, .of_exec fun _ => rfl, .of_exec fun _ => rfl,
    .of_exec fun _ => rfl⟩

/-- The displacement that the meanings use is the field with two zero bits below, sign-extended (R34, R91). -/
theorem displacement_eq_signExtend (li24 : BitVec 24) : displacement li24 = (li24 ++ 0#2).signExtend 32 := by
  have h := branchDisplacement_eq_signExtend_li24 (encodeI opcExt li24 false false)
  rwa [branchDisplacement_eq, li24Of_encodeI] at h

/-- Settles O17: the transaction hands the handler the address before the advance. -/
theorem branchesDeliverTheirTargets : Obligations.BranchesDeliverTheirTargets := by
  intro li24
  rw [← displacement_eq_signExtend]
  exact ⟨.of_exec fun _ => rfl, .of_exec fun _ => rfl, .of_exec fun _ => rfl, .of_exec fun _ => rfl⟩

/-- Settles O18: each spelling is the mnemonic with the suffixes of its constructor. -/
theorem threeOperandSubtractsDeliverTheirRecords : Obligations.ThreeOperandSubtractsDeliverTheirRecords := by
  intro rs ra rb
  and_intros <;> exact .of_exec fun _ => rfl

/-- Settles O19, as O18 with the two-operand form. -/
theorem twoOperandSubtractsDeliverTheirRecords : Obligations.TwoOperandSubtractsDeliverTheirRecords := by
  intro rs ra
  and_intros <;> exact .of_exec fun _ => rfl

/-- Settles O20: the form of the logical family puts `ra` first. -/
theorem logicalInstructionsDeliverTheirRecords : Obligations.LogicalInstructionsDeliverTheirRecords := by
  intro rs ra rb
  and_intros <;> exact .of_exec fun _ => rfl

/-- Settles O21: both meanings of `mr` are one transaction with the record of the move. -/
theorem moveIdiomsOfOrDeliverTheirRecords : Obligations.MoveIdiomsOfOrDeliverTheirRecords := by
  intro rs ra rb
  exact ⟨.of_exec fun _ => rfl, .of_exec fun _ => rfl, fun _ => rfl⟩

/-- Settles O22. -/
theorem integerLoadsAndStoresDeliverTheirRecords : Obligations.IntegerLoadsAndStoresDeliverTheirRecords := by
  intro rs ra rb
  and_intros <;> exact .of_exec fun _ => rfl

/-- Settles O23: `rs` is a floating-point register in this form. -/
theorem floatingLoadsAndStoresDeliverTheirRecords : Obligations.FloatingLoadsAndStoresDeliverTheirRecords := by
  intro rs ra rb
  and_intros <;> exact .of_exec fun _ => rfl

/-- Settles O24: `tw` is a transaction like every other, so it takes no trap. -/
theorem trapWordDeliversItsConditionAndTakesNoTrap : Obligations.TrapWordDeliversItsConditionAndTakesNoTrap :=
  fun _ _ _ => .of_exec fun _ => rfl

/-- Settles O25: the illegal outcome is a transaction like every other (R204). -/
theorem illegalWordDeliversTheRawWord : Obligations.IllegalWordDeliversTheRawWord :=
  fun _ => .of_exec fun _ => rfl

end Sys2Proof.Machine

/-! PROOFS. The decoder, said once (30_encoding.md): the instruction a word reads as encodes back to the word, is well
formed, and has for its meaning the transaction around the block's record of the word. Each family's reader is gone through
once, in the order of its tests, beside its handler. -/

namespace Sys2Proof.Machine

/-- The default parameters meet their constraints (R6). -/
theorem defaultFacts : ConfigFacts defaultConfig := configFacts defaultConfig_ok

/-- The instruction `i` is a reading of the word under this setting: no bit of the word is lost, the simplified forms are
chosen as R64 says, and the meaning is the block's at the default parameters. -/
structure ReadsAs (code : Word) (simplified : Bool) (i : Instr) : Prop where
  encode_eq : encode i = code
  wf : i.wf simplified = true
  exec_eq : ∀ s, exec i s = transact (fun a => decodeRecord defaultConfig code a simplified) s

/-- One row of the opcode table seen from the instruction: the word it stands for and the record it delivers, whatever
the cursor holds. -/
structure Spells (simplified : Bool) (i : Instr) (w : Word) (d : Decoded) : Prop where
  encode_eq : encode i = w
  wf : i.wf simplified = true
  exec_eq : ∀ s, exec i s = transact (fun _ => d) s

/-- A row whose word is the word decoded and whose record is the block's is a reading of the word. -/
theorem Spells.readsAs {code w : Word} {simplified : Bool} {i : Instr} {d : Decoded} (h : Spells simplified i w d)
    (hw : w = code) (hd : ∀ a, decodeRecord defaultConfig code a simplified = d) : ReadsAs code simplified i where
  encode_eq := h.encode_eq.trans hw
  wf := h.wf
  exec_eq := by simpa only [hd] using h.exec_eq

/-- A word whose record is `ILLEGAL(code)` reads as `dc.l` (R76). -/
theorem readsAs_dcl {code : Word} {simplified : Bool}
    (hd : ∀ a, decodeRecord defaultConfig code a simplified = illegalRecord code) :
    ReadsAs code simplified (.dcl code) := by
  have hcause : (illegalCause defaultConfig code simplified).isSome = true :=
    (isSome_illegalCause_iff defaultConfig code 0 simplified).2 (by rw [hd]; rfl)
  exact Spells.readsAs ⟨rfl, hcause, fun _ => rfl⟩ rfl hd

/-- Add-immediate (R80, R81). -/
theorem readsAs_decodeAddi {code : Word} (hopc : opcOf code = defaultConfig.opcAddi) (simplified : Bool) :
    ReadsAs code simplified (decodeAddi code simplified) := by
  have hd (a : Word) : decodeRecord defaultConfig code a simplified = handleAddi code simplified := by
    rw [decodeRecord, hopc, dispatch_default_addi]
  have hw := encodeD_of_fields code
  rw [hopc] at hw
  unfold decodeAddi
  split_ifs with hli
  · obtain ⟨hra, hsimp⟩ := hli
    rw [hra] at hw
    refine Spells.readsAs (d := regImm "li" (rsOf code) (immOf code)) ⟨rfl, hsimp, fun _ => rfl⟩ hw fun a => ?_
    rw [hd, handleAddi, if_pos ⟨hra, hsimp⟩, regImm]
  · refine Spells.readsAs (d := regRegImm "addi" (rsOf code) (raOf code) (immOf code)) ⟨rfl, ?_, fun _ => rfl⟩ hw
      fun a => ?_
    · cases simplified <;> simp_all [Instr.wf]
    · rw [hd, handleAddi, if_neg hli, regRegImm]

/-- Or-immediate, its three tests in the order of R85. -/
theorem readsAs_decodeOri {code : Word} (hopc : opcOf code = opcOri) (simplified : Bool) :
    ReadsAs code simplified (decodeOri code simplified) := by
  have hd (a : Word) : decodeRecord defaultConfig code a simplified = handleOri code simplified :=
    decodeRecord_of_ori defaultFacts hopc a simplified
  have hw := encodeD_of_fields code
  rw [hopc] at hw
  unfold decodeOri
  split_ifs with hnop hmr
  · obtain ⟨hra, hrs, himm, hsimp⟩ := hnop
    rw [hra, hrs, himm] at hw
    refine Spells.readsAs (d := bare "nop") ⟨rfl, hsimp, fun _ => rfl⟩ hw fun a => ?_
    rw [hd, handleOri, if_pos ⟨hra, hrs, himm, hsimp⟩, bare]
  · obtain ⟨himm, hsimp⟩ := hmr
    have hregs : ¬(rsOf code = 0 ∧ raOf code = 0) := fun ⟨hrs, hra⟩ => hnop ⟨hra, hrs, himm, hsimp⟩
    rw [himm] at hw
    refine Spells.readsAs (d := moveReg false (rsOf code) (raOf code)) ⟨rfl, ?_, fun _ => rfl⟩ hw fun a => ?_
    · simpa [Instr.wf, hsimp, -not_and, not_and_or] using hregs
    · rw [hd, handleOri, if_neg hnop, if_pos ⟨himm, hsimp⟩]
      rfl
  · refine Spells.readsAs (d := regRegImm "ori" (rsOf code) (raOf code) (immOf code)) ⟨rfl, ?_, fun _ => rfl⟩ hw
      fun a => ?_
    · cases simplified <;> simp_all [Instr.wf]
    · rw [hd, handleOri, if_neg hnop, if_neg hmr, regRegImm]

/-- The branches; the one family whose record reads the cursor (R90, R91). -/
theorem readsAs_decodeBranch {code : Word} (hopc : opcOf code = defaultConfig.opcB) (simplified : Bool) :
    ReadsAs code simplified (decodeBranch code) := by
  have hd : (fun a => decodeRecord defaultConfig code a simplified) = fun a => handleBranch code a := by
    funext a
    rw [decodeRecord, hopc, dispatch_default_branch]
  have hw := encodeI_of_fields code
  rw [hopc] at hw
  unfold decodeBranch
  cases haa : aaOf code <;> cases hlk : lkOf code <;> rw [haa, hlk] at hw
  all_goals
    refine ⟨hw, rfl, fun s => ?_⟩
    simp only [hd, handleBranch, branchDisplacement_eq, haa, hlk]
    rfl

/-- The extended opcode of a subtract-family row: `OE`, the index and the family's selector (R38). -/
def subExtOpc (oe : Bool) (k : Nat) : BitVec 10 :=
  (BitVec.ofBool oe).setWidth 10 <<< 9 ||| (BitVec.ofNat 4 k).setWidth 10 <<< 5 ||| selSubtract.setWidth 10

/-- The extended opcode of a row of a family with a five-bit index: the index and the family's selector (R38). -/
def idxExtOpc (sel : BitVec 5) (k : Nat) : BitVec 10 :=
  (BitVec.ofNat 5 k).setWidth 10 <<< 5 ||| sel.setWidth 10

theorem idx4Of_eq_ofNat {code : Word} {k : Nat} (hidx : (idx4Of code).toNat = k) : idx4Of code = BitVec.ofNat 4 k := by
  rw [← hidx, BitVec.ofNat_toNat, BitVec.setWidth_eq]

theorem idx5Of_eq_ofNat {code : Word} {k : Nat} (hidx : (idx5Of code).toNat = k) : idx5Of code = BitVec.ofNat 5 k := by
  rw [← hidx, BitVec.ofNat_toNat, BitVec.setWidth_eq]

theorem extOpcOf_of_subtract {code : Word} (hsel : selOf code = selSubtract) {k : Nat}
    (hidx : (idx4Of code).toNat = k) : extOpcOf code = subExtOpc (oeOf code) k := by
  rw [extOpcOf_eq_oe_idx4_sel, hsel, idx4Of_eq_ofNat hidx, subExtOpc]

theorem extOpcOf_of_idx5 {code : Word} {sel : BitVec 5} (hsel : selOf code = sel) {k : Nat}
    (hidx : (idx5Of code).toNat = k) : extOpcOf code = idxExtOpc sel k := by
  rw [extOpcOf_eq_idx5_sel, hsel, idx5Of_eq_ofNat hidx, idxExtOpc]

/-- `SUBFAM` at an index with an entry that is no two-operand index (R110). -/
theorem handleSubtract_of_three {cfg : Config} {code : Word} {m : String}
    (hrom : rom cfg.subRom (idx4Of code).toNat = some m) (hone : twoOperandIndex (idx4Of code) = false) :
    handleSubtract cfg code = subThree m (oeOf code) (rcOf code) (rsOf code) (raOf code) (rbOf code) := by
  simp [handleSubtract, hrom, hone, subThree]

/-- `SUBFAM` at a two-operand index with an entry and a zero `rb` (R110 (b), (d)). -/
theorem handleSubtract_of_two {cfg : Config} {code : Word} {m : String}
    (hrom : rom cfg.subRom (idx4Of code).toNat = some m) (htwo : twoOperandIndex (idx4Of code) = true)
    (hrb : rbOf code = 0) :
    handleSubtract cfg code = subTwo m (oeOf code) (rcOf code) (rsOf code) (raOf code) := by
  simp [handleSubtract, hrom, htwo, hrb, subTwo]

/-- `LDSTFAM` at an integer index with an entry and `rc = 0` (R150). -/
theorem handleLoadStore_of_int {cfg : Config} {code : Word} {m : String}
    (hrom : rom cfg.ldstRom (idx5Of code).toNat = some m) (hrc : rcOf code = false)
    (hint : (idx5Of code).toNat ≤ ldstLastInteger) :
    handleLoadStore cfg code = loadStoreInt m (rsOf code) (raOf code) (rbOf code) := by
  have hlast : ¬ldstLastIndex < (idx5Of code).toNat := not_lt.2 (hint.trans (by decide))
  simp [handleLoadStore, hrom, hrc, hlast, hint, loadStoreInt]

/-- `LDSTFAM` at a floating-point index with an entry and `rc = 0` (R150 (d)). -/
theorem handleLoadStore_of_fp {cfg : Config} {code : Word} {m : String}
    (hrom : rom cfg.ldstRom (idx5Of code).toNat = some m) (hrc : rcOf code = false)
    (hfp : ldstLastInteger < (idx5Of code).toNat) (hlast : (idx5Of code).toNat ≤ ldstLastIndex) :
    handleLoadStore cfg code = loadStoreFp m (rsOf code) (raOf code) (rbOf code) := by
  simp [handleLoadStore, hrom, hrc, not_lt.2 hlast, not_le.2 hfp, loadStoreFp]

/-- The indices of the default subtract ROM that have an entry (R17). -/
theorem rom_defaultSubRom_eq_none {k : Nat} (h : k ∉ [0, 1, 3, 4, 6, 7, 8, 11, 15]) : rom defaultSubRom k = none := by
  by_cases hk : k < defaultSubRom.length
  · exact (by decide : ∀ k < 16, k ∉ [0, 1, 3, 4, 6, 7, 8, 11, 15] → rom defaultSubRom k = none) k hk h
  · exact rom_eq_none_of_length_le (not_lt.1 hk)

/-- The indices of the default logical ROM that have an entry (R17). -/
theorem rom_defaultLogicRom_eq_none {k : Nat} (h : k ∉ [0, 1, 3, 8, 9, 12, 13, 14]) : rom defaultLogicRom k = none := by
  by_cases hk : k < 16
  · exact (by decide : ∀ k < 16, k ∉ [0, 1, 3, 8, 9, 12, 13, 14] → rom defaultLogicRom k = none) k hk h
  · exact rom_defaultLogicRom_of_ge (not_lt.1 hk)

/-- The indices of the default load/store ROM that have an entry (R17). -/
theorem rom_defaultLdstRom_eq_none {k : Nat}
    (h : k ∉ [0, 1, 2, 3, 4, 5, 6, 7, 8, 9, 10, 11, 12, 13, 16, 17, 18, 19, 20, 21, 22, 23]) :
    rom defaultLdstRom k = none := by
  by_cases hk : k < defaultLdstRom.length
  · exact (by decide : ∀ k < 24, k ∉ [0, 1, 2, 3, 4, 5, 6, 7, 8, 9, 10, 11, 12, 13, 16, 17, 18, 19, 20, 21, 22, 23] →
      rom defaultLdstRom k = none) k hk h
  · exact rom_eq_none_of_length_le (not_lt.1 hk)

/-- The move-register idiom's test as the conditions it makes (R139). -/
theorem isMoveIdiom_iff (code : Word) (simplified : Bool) :
    isMoveIdiom code simplified = true ↔ idx5Of code = idxOr ∧ rsOf code = rbOf code ∧ simplified = true := by
  simp [isMoveIdiom, and_assoc]

/-- The families of the extended group, by the selector (R101). -/
theorem decodeRecord_of_subtract {cfg : Config} (facts : ConfigFacts cfg) {code : Word} (hopc : opcOf code = opcExt)
    (hsel : selOf code = selSubtract) (addr : Word) (simplified : Bool) :
    decodeRecord cfg code addr simplified = handleSubtract cfg code := by
  rw [decodeRecord_of_ext facts hopc, handleExt, if_pos hsel]

theorem decodeRecord_of_loadStore {cfg : Config} (facts : ConfigFacts cfg) {code : Word} (hopc : opcOf code = opcExt)
    (hsel : selOf code = selLoadStore) (addr : Word) (simplified : Bool) :
    decodeRecord cfg code addr simplified = handleLoadStore cfg code := by
  have hnotSub : selLoadStore ≠ selSubtract := by decide
  have hnotLogic : selLoadStore ≠ selLogical := by decide
  rw [decodeRecord_of_ext facts hopc, handleExt, hsel, if_neg hnotSub, if_neg hnotLogic, if_pos rfl]

section extendedGroup
variable {code : Word} {simplified : Bool} (hopc : opcOf code = opcExt)
include hopc

/-- An index of three operands: the four spellings encode and deliver as the index and its entry say (R110). -/
theorem readsAs_subThree (hsel : selOf code = selSubtract) {k : Nat} (hidx : (idx4Of code).toNat = k) {m : String}
    (hrom : rom defaultSubRom k = some m) (hone : twoOperandIndex (BitVec.ofNat 4 k) = false)
    {plain withRc withOe withOeRc : Instr}
    (h : ∀ oe rc, Spells simplified (bySuffix oe rc plain withRc withOe withOeRc)
      (encodeX (rsOf code) (raOf code) (rbOf code) (subExtOpc oe k) rc)
      (subThree m oe rc (rsOf code) (raOf code) (rbOf code))) :
    ReadsAs code simplified (bySuffix (oeOf code) (rcOf code) plain withRc withOe withOeRc) := by
  refine (h _ _).readsAs ?_ fun a => ?_
  · rw [← extOpcOf_of_subtract hsel hidx, encodeX_of_fields hopc]
  · rw [decodeRecord_of_subtract defaultFacts hopc hsel]
    exact handleSubtract_of_three (hidx ▸ hrom) (idx4Of_eq_ofNat hidx ▸ hone)

/-- A two-operand index, where the reader has left only words with a zero `rb` (R110 (b), IL3). -/
theorem readsAs_subTwo (hsel : selOf code = selSubtract) {k : Nat} (hidx : (idx4Of code).toNat = k) {m : String}
    (hrom : rom defaultSubRom k = some m) (htwo : twoOperandIndex (BitVec.ofNat 4 k) = true)
    (hnot : ¬(twoOperandIndex (idx4Of code) = true ∧ rbOf code ≠ 0)) {plain withRc withOe withOeRc : Instr}
    (h : ∀ oe rc, Spells simplified (bySuffix oe rc plain withRc withOe withOeRc)
      (encodeX (rsOf code) (raOf code) 0 (subExtOpc oe k) rc) (subTwo m oe rc (rsOf code) (raOf code))) :
    ReadsAs code simplified (bySuffix (oeOf code) (rcOf code) plain withRc withOe withOeRc) := by
  rw [← idx4Of_eq_ofNat hidx] at htwo
  have hrb : rbOf code = 0 := by_contra fun hne => hnot ⟨htwo, hne⟩
  refine (h _ _).readsAs ?_ fun a => ?_
  · rw [← extOpcOf_of_subtract hsel hidx, ← hrb, encodeX_of_fields hopc]
  · rw [decodeRecord_of_subtract defaultFacts hopc hsel]
    exact handleSubtract_of_two (hidx ▸ hrom) htwo hrb

/-- The subtract family (R38, R110 to R120). -/
theorem readsAs_decodeSubtract (hsel : selOf code = selSubtract) : ReadsAs code simplified (decodeSubtract code) := by
  have hillegal := illegalExactlyWhen_handleSubtract defaultConfig code
  unfold decodeSubtract
  dsimp only
  split
  · next hrb =>
    refine readsAs_dcl fun a => ?_
    rw [decodeRecord_of_subtract defaultFacts hopc hsel]
    exact hillegal.eq_of_cond (.inr hrb)
  · next hrb =>
    split
    case h_1 | h_2 | h_4 | h_7 =>
      next hidx =>
        refine readsAs_subThree hopc hsel hidx rfl rfl fun oe rc => ?_
        cases oe <;> cases rc <;> exact ⟨rfl, rfl, fun _ => rfl⟩
    case h_3 | h_5 | h_6 | h_8 | h_9 =>
      next hidx =>
        refine readsAs_subTwo hopc hsel hidx rfl rfl hrb fun oe rc => ?_
        cases oe <;> cases rc <;> exact ⟨rfl, rfl, fun _ => rfl⟩
    case h_10 =>
      refine readsAs_dcl fun a => ?_
      rw [decodeRecord_of_subtract defaultFacts hopc hsel]
      refine hillegal.eq_of_cond (.inl (rom_defaultSubRom_eq_none ?_))
      simp_all

/-- The two spellings of a logical row, whatever record `LOGICFAM` has for the word (R130). -/
theorem readsAs_byRc (hsel : selOf code = selLogical) {k : Nat} (hidx : (idx5Of code).toNat = k) {plain withRc : Instr}
    {d : Bool → Decoded} (hd : handleLogical defaultConfig code simplified = d (rcOf code))
    (h : ∀ rc, Spells simplified (byRc rc plain withRc)
      (encodeX (rsOf code) (raOf code) (rbOf code) (idxExtOpc selLogical k) rc) (d rc)) :
    ReadsAs code simplified (byRc (rcOf code) plain withRc) := by
  refine (h _).readsAs ?_ fun a =>
    (decodeRecord_of_logical (hopc ▸ dispatch_opcExt defaultFacts) hsel a _).trans hd
  rw [← extOpcOf_of_idx5 hsel hidx, encodeX_of_fields hopc]

/-- An index of the logical family with an entry, outside the idiom (R130 (c)). -/
theorem readsAs_logicThree (hsel : selOf code = selLogical) {k : Nat} (hidx : (idx5Of code).toNat = k) {m : String}
    (hrom : rom defaultLogicRom k = some m)
    (hno : ¬(idx5Of code = idxOr ∧ rsOf code = rbOf code ∧ simplified = true)) {plain withRc : Instr}
    (h : ∀ rc, Spells simplified (byRc rc plain withRc)
      (encodeX (rsOf code) (raOf code) (rbOf code) (idxExtOpc selLogical k) rc)
      (logicThree m rc (rsOf code) (raOf code) (rbOf code))) :
    ReadsAs code simplified (byRc (rcOf code) plain withRc) := by
  refine readsAs_byRc hopc hsel hidx ?_ h
  rw [handleLogical_of_rom_some defaultConfig hno (hidx ▸ hrom), ← suffix_false, logicThree]

/-- The logical family (R38, R130 to R140). -/
theorem readsAs_decodeLogical (hsel : selOf code = selLogical) :
    ReadsAs code simplified (decodeLogical code simplified) := by
  unfold decodeLogical
  dsimp only
  split
  · next hidiom =>
    obtain ⟨hidx, hsrc, hsimp⟩ := (isMoveIdiom_iff code simplified).1 hidiom
    refine readsAs_byRc hopc hsel (k := 13) (by rw [hidx]; rfl) (d := fun rc => moveReg rc (rsOf code) (raOf code)) ?_
      fun rc => ?_
    · rw [handleLogical_of_idiom defaultConfig ⟨hidx, hsrc, hsimp⟩]
      cases rcOf code <;> rfl
    · rw [hsrc, hsimp]
      cases rc <;> exact ⟨rfl, by simp [byRc, Instr.wf], fun _ => rfl⟩
  · next hno =>
    rw [isMoveIdiom_iff] at hno
    split
    case h_7 hidx =>
      refine readsAs_logicThree hopc hsel hidx rfl hno fun rc => ?_
      have hwf : (!(simplified && rsOf code == rbOf code)) = true := by
        have hor : idx5Of code = idxOr := idx5Of_eq_ofNat hidx
        cases simplified <;> simp_all
      cases rc <;> exact ⟨rfl, hwf, fun _ => rfl⟩
    case h_1 | h_2 | h_3 | h_4 | h_5 | h_6 | h_8 =>
      next hidx =>
        refine readsAs_logicThree hopc hsel hidx rfl hno fun rc => ?_
        cases rc <;> exact ⟨rfl, rfl, fun _ => rfl⟩
    case h_9 =>
      refine readsAs_dcl fun a => ?_
      rw [decodeRecord_of_logical (hopc ▸ dispatch_opcExt defaultFacts) hsel]
      refine handleLogical_of_rom_none defaultConfig hno (rom_defaultLogicRom_eq_none ?_)
      simp_all

/-- A load/store row, whatever record `LDSTFAM` has for the word (R150). -/
theorem readsAs_loadStore (hsel : selOf code = selLoadStore) {k : Nat} (hidx : (idx5Of code).toNat = k)
    (hrc : rcOf code = false) {d : Decoded} (hd : handleLoadStore defaultConfig code = d) {i : Instr}
    (h : Spells simplified i (encodeX (rsOf code) (raOf code) (rbOf code) (idxExtOpc selLoadStore k) false) d) :
    ReadsAs code simplified i := by
  refine h.readsAs ?_ fun a => (decodeRecord_of_loadStore defaultFacts hopc hsel a _).trans hd
  rw [← extOpcOf_of_idx5 hsel hidx, ← hrc, encodeX_of_fields hopc]

theorem readsAs_loadStoreInt (hsel : selOf code = selLoadStore) {k : Nat} (hidx : (idx5Of code).toNat = k)
    (hrc : ¬rcOf code = true) {m : String} (hrom : rom defaultLdstRom k = some m) (hint : k ≤ ldstLastInteger)
    {i : Instr}
    (h : Spells simplified i (encodeX (rsOf code) (raOf code) (rbOf code) (idxExtOpc selLoadStore k) false)
      (loadStoreInt m (rsOf code) (raOf code) (rbOf code))) : ReadsAs code simplified i := by
  have hrc' : rcOf code = false := Bool.eq_false_iff.2 hrc
  exact readsAs_loadStore hopc hsel hidx hrc' (handleLoadStore_of_int (hidx ▸ hrom) hrc' (hidx ▸ hint)) h

theorem readsAs_loadStoreFp (hsel : selOf code = selLoadStore) {k : Nat} (hidx : (idx5Of code).toNat = k)
    (hrc : ¬rcOf code = true) {m : String} (hrom : rom defaultLdstRom k = some m)
    (hfp : ldstLastInteger < k) (hlast : k ≤ ldstLastIndex) {i : Instr}
    (h : Spells simplified i (encodeX (rsOf code) (raOf code) (rbOf code) (idxExtOpc selLoadStore k) false)
      (loadStoreFp m (rsOf code) (raOf code) (rbOf code))) : ReadsAs code simplified i := by
  have hrc' : rcOf code = false := Bool.eq_false_iff.2 hrc
  exact readsAs_loadStore hopc hsel hidx hrc' (handleLoadStore_of_fp (hidx ▸ hrom) hrc' (hidx ▸ hfp) (hidx ▸ hlast)) h

/-- The indexed load/store family (R38, R150 to R173). -/
theorem readsAs_decodeLoadStore (hsel : selOf code = selLoadStore) :
    ReadsAs code simplified (decodeLoadStore code) := by
  have hillegal := illegalExactlyWhen_handleLoadStore defaultConfig code
  unfold decodeLoadStore
  dsimp only
  split
  · next hrc =>
    refine readsAs_dcl fun a => ?_
    rw [decodeRecord_of_loadStore defaultFacts hopc hsel]
    exact hillegal.eq_of_cond (.inr (.inl hrc))
  · next hrc =>
    split
    case h_23 =>
      refine readsAs_dcl fun a => ?_
      rw [decodeRecord_of_loadStore defaultFacts hopc hsel]
      refine hillegal.eq_of_cond (.inr (.inr (rom_defaultLdstRom_eq_none ?_)))
      simp_all
    case h_15 | h_16 | h_17 | h_18 | h_19 | h_20 | h_21 | h_22 =>
      next hidx =>
        exact readsAs_loadStoreFp hopc hsel hidx hrc rfl (by decide) (by decide) ⟨rfl, rfl, fun _ => rfl⟩
    all_goals next hidx =>
      exact readsAs_loadStoreInt hopc hsel hidx hrc rfl (by decide) ⟨rfl, rfl, fun _ => rfl⟩

/-- Tier B: `tw` and the fallback (R102, R180, R181). -/
theorem readsAs_decodeTierB (hsub : selOf code ≠ selSubtract) (hlogic : selOf code ≠ selLogical)
    (hldst : selOf code ≠ selLoadStore) : ReadsAs code simplified (decodeTierB code) := by
  have hd (a : Word) : decodeRecord defaultConfig code a simplified = handleTierB code :=
    decodeRecord_of_tierB defaultFacts hopc hsub hlogic hldst a simplified
  unfold decodeTierB
  split_ifs with htw
  · obtain ⟨hext, hrc⟩ := htw
    refine Spells.readsAs (d := trapWord (rsOf code) (raOf code) (rbOf code)) ⟨rfl, rfl, fun _ => rfl⟩ ?_ fun a => ?_
    · have hw := encodeX_of_fields hopc
      rwa [hext, hrc] at hw
    · rw [hd, handleTierB, if_pos hext, handleTw, hrc, if_neg Bool.false_ne_true, trapWord]
  · refine readsAs_dcl fun a => (hd a).trans ((illegalExactlyWhen_handleTierB code).eq_of_cond ?_)
    by_cases hext : extOpcOf code = extOpcTw
    · exact .inl ⟨hext, by simpa [hext] using htw⟩
    · exact .inr hext

/-- The extended group, tier A before tier B (R101, R104). -/
theorem readsAs_decodeExt : ReadsAs code simplified (decodeExt code simplified) := by
  unfold decodeExt
  split_ifs with hsub hlogic hldst
  · exact readsAs_decodeSubtract hopc hsub
  · exact readsAs_decodeLogical hopc hlogic
  · exact readsAs_decodeLoadStore hopc hldst
  · exact readsAs_decodeTierB hopc hsub hlogic hldst

end extendedGroup

/-- Every word is read, by the reader of its primary opcode (R36, R39, R70). -/
theorem readsAs_decodeWord (code : Word) (simplified : Bool) :
    ReadsAs code simplified (decodeWord code simplified) := by
  unfold decodeWord
  cases hd : dispatch defaultConfig (opcOf code) with
  | addi => exact readsAs_decodeAddi (opc_of_dispatch_addi hd) simplified
  | ori => exact readsAs_decodeOri (opc_of_dispatch_ori hd) simplified
  | branch => exact readsAs_decodeBranch (opc_of_dispatch_branch hd) simplified
  | ext => exact readsAs_decodeExt (opc_of_dispatch_ext hd)
  | illegal => exact readsAs_dcl fun a => by rw [decodeRecord, hd]

/-- Settles O9. -/
theorem decodingGivesAWellFormedInstruction : Obligations.DecodingGivesAWellFormedInstruction :=
  fun code simplified => (readsAs_decodeWord code simplified).wf

/-- Settles O10: each family's fields put together again are the word. -/
theorem encodingInvertsDecodingOnEveryWord : Obligations.EncodingInvertsDecodingOnEveryWord := by
  intro code simplified
  have hencode := (readsAs_decodeWord code simplified).encode_eq
  exact ⟨hencode, congrArg bytesOfWord hencode⟩

/-- Settles O15: the meaning of the instruction read is the transaction around the block's record. -/
theorem stepRefinesTheBlockAtTheDefaultParameters : Obligations.StepRefinesTheBlockAtTheDefaultParameters := by
  intro s
  unfold step blockStep
  cases s.pending with
  | nil => rfl
  | cons action rest =>
    cases action with
    | loadAddr a => rfl
    | decode code simplified => exact (readsAs_decodeWord code simplified).exec_eq _

end Sys2Proof.Machine

/-! PROOFS. The encoder against the decoder (30_encoding.md sections 2 to 5): a well-formed instruction is read back from
its word, and the row of the instruction read wins among the rows of the opcode table that match the word (R39). -/

namespace Sys2Proof.Machine

/-- A transaction hands over its handler's record, so the handler is determined by what it does. -/
theorem record_eq_of_transact_eq {h h' : Word → Decoded} (heq : ∀ s, transact h s = transact h' s) (a : Word) :
    h a = h' a := by
  have hs := heq (State.reset.withAddr a)
  rw [transact_of_addr (State.withAddr_addr _ a), transact_of_addr (State.withAddr_addr _ a)] at hs
  injection hs with hs
  simpa using congrArg State.out hs

/-- Every instruction but `dc.l` delivers an accepted record. -/
theorem eq_dcl_or_exec_accepted (i : Instr) :
    (∃ code, i = .dcl code) ∨ ∃ h : Word → Decoded, (∀ s, exec i s = transact h s) ∧ ∀ a, (h a).illegal = false := by
  cases i
  case dcl code => exact .inl ⟨code, rfl⟩
  all_goals exact .inr ⟨_, fun _ => rfl, fun _ => rfl⟩

/-- A word of the illegal path reads as `dc.l` of itself (R76). -/
theorem decodeWord_of_illegalCause {code : Word} {simplified : Bool}
    (h : (illegalCause defaultConfig code simplified).isSome = true) : decodeWord code simplified = .dcl code := by
  have hread := readsAs_decodeWord code simplified
  obtain ⟨c, hc⟩ | ⟨record, hexec, haccepted⟩ := eq_dcl_or_exec_accepted (decodeWord code simplified)
  · have hencode := hread.encode_eq
    rw [hc] at hencode ⊢
    rw [show c = code from hencode]
  · have hrecord := record_eq_of_transact_eq (fun s => (hexec s).symm.trans (hread.exec_eq s)) 0
    rw [isSome_illegalCause_iff defaultConfig code 0 simplified, ← hrecord, haccepted] at h
    cases h

/-- The reader of each handled primary opcode (R39, R71). -/
theorem decodeWord_of_addi {code : Word} (hopc : opcOf code = defaultConfig.opcAddi) (simplified : Bool) :
    decodeWord code simplified = decodeAddi code simplified := by
  rw [decodeWord, hopc, dispatch_default_addi]

theorem decodeWord_of_ori {code : Word} (hopc : opcOf code = opcOri) (simplified : Bool) :
    decodeWord code simplified = decodeOri code simplified := by
  rw [decodeWord, hopc, dispatch_default_ori]

theorem decodeWord_of_branch {code : Word} (hopc : opcOf code = defaultConfig.opcB) (simplified : Bool) :
    decodeWord code simplified = decodeBranch code := by
  rw [decodeWord, hopc, dispatch_default_branch]

theorem decodeWord_encodeX (rs ra rb : RegNum) (e : BitVec 10) (rc simplified : Bool) :
    decodeWord (encodeX rs ra rb e rc) simplified = decodeExt (encodeX rs ra rb e rc) simplified := by
  rw [decodeWord, opcOf_encodeX, dispatch_default_ext]

theorem isMoveIdiom_encodeX (rs ra rb : RegNum) (e : BitVec 10) (rc simplified : Bool) :
    isMoveIdiom (encodeX rs ra rb e rc) simplified = (e.extractLsb' 5 5 == idxOr && rs == rb && simplified) := by
  rw [isMoveIdiom, idx5Of_eq, extOpcOf_encodeX, rsOf_encodeX, rbOf_encodeX]

/-- At the extended opcode of `or` the idiom's test is the one that well-formedness makes (R64, R139). -/
theorem isMoveIdiom_encodeX_or (rs ra rb : RegNum) (rc simplified : Bool) :
    isMoveIdiom (encodeX rs ra rb 444 rc) simplified = (simplified && rs == rb) := by
  rw [isMoveIdiom_encodeX, Bool.and_assoc, Bool.and_comm (rs == rb)]
  rfl

/-- A well-formed instruction is read back from its word: the fields are the encoder's, and each reader's tests on them
come out as the constructor says. -/
theorem decodeWord_encode {i : Instr} {simplified : Bool} (h : i.wf simplified = true) :
    decodeWord (encode i) simplified = i := by
  cases i
  case dcl code => exact decodeWord_of_illegalCause h
  case b | bl | ba | bla =>
    rw [encode, decodeWord_of_branch (opcOf_encodeI _ _ _ _)]
    simp [decodeBranch]
  case li | addi =>
    rw [encode, decodeWord_of_addi (opcOf_encodeD _ _ _ _), decodeAddi]
    cases simplified <;> simp_all [Instr.wf]
  case nop | ori =>
    rw [encode, decodeWord_of_ori (opcOf_encodeD _ _ _ _), decodeOri]
    cases simplified <;> simp_all [Instr.wf]
  case mrOri rs ra =>
    simp only [Instr.wf, Bool.and_eq_true, Bool.not_eq_true', Bool.and_eq_false_iff, beq_eq_false_iff_ne] at h
    obtain ⟨hsimp, hregs⟩ := h
    have hnotNop : ¬(ra = 0 ∧ rs = 0) := fun ⟨hra, hrs⟩ => hregs.elim (· hrs) (· hra)
    rw [encode, decodeWord_of_ori (opcOf_encodeD _ _ _ _), decodeOri]
    simpa [hsimp, -not_and] using hnotNop
  case mrOr | mrOrRc | or | orRc =>
    simp only [Instr.wf, Bool.not_eq_true'] at h
    simp only [encode, decodeWord_encodeX, decodeExt, decodeLogical, isMoveIdiom_encodeX_or, h, selOf_eq, idx5Of_eq,
      extOpcOf_encodeX, rcOf_encodeX, rsOf_encodeX, raOf_encodeX, rbOf_encodeX]
    rfl
  case tw =>
    simp only [encode, decodeWord_encodeX, decodeExt, decodeTierB, selOf_eq, extOpcOf_encodeX, rcOf_encodeX,
      rsOf_encodeX, raOf_encodeX, rbOf_encodeX]
    rfl
  case and | andRc | andc | andcRc | nor | norRc | eqv | eqvRc | xor | xorRc | orc | orcRc | nand | nandRc =>
    simp only [encode, decodeWord_encodeX, decodeExt, decodeLogical, isMoveIdiom_encodeX, selOf_eq, idx5Of_eq,
      extOpcOf_encodeX, rcOf_encodeX, rsOf_encodeX, raOf_encodeX, rbOf_encodeX]
    rfl
  case lwzx | lwzux | lbzx | lbzux | stwx | stwux | stbx | stbux | lhzx | lhzux | lhax | lhaux | sthx | sthux
    | lfsx | lfsux | lfdx | lfdux | stfsx | stfsux | stfdx | stfdux =>
    simp only [encode, decodeWord_encodeX, decodeExt, decodeLoadStore, selOf_eq, idx5Of_eq, extOpcOf_encodeX,
      rcOf_encodeX, rsOf_encodeX, raOf_encodeX, rbOf_encodeX]
    rfl
  all_goals
    simp only [encode, decodeWord_encodeX, decodeExt, decodeSubtract, selOf_eq, idx4Of_eq, oeOf_eq, extOpcOf_encodeX,
      rcOf_encodeX, rsOf_encodeX, raOf_encodeX, rbOf_encodeX]
    rfl

/-- Settles O11: in words by the readers' tests, in bytes because a word is put together again from its four bytes. -/
theorem decodingInvertsEncodingOnWellFormedInstructions :
    Obligations.DecodingInvertsEncodingOnWellFormedInstructions := by
  intro i simplified hwf
  refine ⟨decodeWord_encode hwf, fun rest => ?_⟩
  rw [encodeBytes, decodeBytes_bytesOfWord, decodeWord_encode hwf]

/-- The row loses to none but the row of the instruction read: it is that row, or that row comes before it (R39). -/
def BeatenOrRead (code : Word) (simplified : Bool) (row : TableRow) : Prop :=
  row = tableRow (decodeWord code simplified) ∨ (tableRow (decodeWord code simplified)).priority < row.priority

/-- The row of a well-formed instruction whose word this is. -/
theorem beatenOrRead_of_encode {code : Word} {simplified : Bool} {i : Instr} (hwf : i.wf simplified = true)
    (henc : encode i = code) : BeatenOrRead code simplified (tableRow i) :=
  .inl (by rw [← henc, decodeWord_encode hwf])

/-- A row that comes after the row of a well-formed instruction whose word this is. -/
theorem beatenOrRead_of_lt {code : Word} {simplified : Bool} {i : Instr} {row : TableRow}
    (hwf : i.wf simplified = true) (henc : encode i = code) (hlt : (tableRow i).priority < row.priority) :
    BeatenOrRead code simplified row :=
  .inr (by rwa [← henc, decodeWord_encode hwf])

/-- What a row's match asks of a word (R39). -/
theorem hits_iff {row : TableRow} {code : Word} {simplified : Bool} :
    row.hits code simplified = true ↔
      code &&& row.mask = row.pattern ∧ (row.needsSimplified = true → simplified = true) ∧
        (row.needsRsEqRb = true → rsOf code = rbOf code) := by
  simp [TableRow.hits, and_assoc, imp_iff_not_or]

/-- Every instruction's word agrees with its row on the row's mask (R39). -/
theorem encode_and_mask (i : Instr) : encode i &&& (tableRow i).mask = (tableRow i).pattern := by
  cases i
  case li => exact Laws.TableRowMatch.li _ _
  case addi => exact Laws.TableRowMatch.addi _ _ _
  case nop => exact Laws.TableRowMatch.nop
  case mrOri => exact Laws.TableRowMatch.mrOri _ _
  case ori => exact Laws.TableRowMatch.ori _ _ _
  case b | bl | ba | bla => exact (encodeI_and_mask _ _ _ _).trans rfl
  case dcl => exact Laws.TableRowMatch.dcl _
  case neg | negRc | negOe | negOeRc | subfze | subfzeRc | subfzeOe | subfzeOeRc | subfme | subfmeRc | subfmeOe
    | subfmeOeRc | abs | absRc | absOe | absOeRc | nabs | nabsRc | nabsOe | nabsOeRc =>
    exact (encodeX_and_mask_rb _ _ _ _).trans rfl
  all_goals exact (encodeX_and_mask _ _ _ _ _).trans rfl

/-- The rows that apply under `simplified = 1` only are those of the simplified mnemonics (R39, R64). -/
theorem simplified_of_needsSimplified {i : Instr} {simplified : Bool} (hwf : i.wf simplified = true)
    (hrow : (tableRow i).needsSimplified = true) : simplified = true := by
  cases i
  case li | nop => exact hwf
  case mrOri | mrOr | mrOrRc =>
    rw [Instr.wf, Bool.and_eq_true] at hwf
    exact hwf.1
  all_goals cases hrow

/-- The rows that ask for equal sources are those of the move-register idiom (R39, R139). -/
theorem rs_eq_rb_of_needsRsEqRb {i : Instr} {simplified : Bool} (hwf : i.wf simplified = true)
    (hrow : (tableRow i).needsRsEqRb = true) : rsOf (encode i) = rbOf (encode i) := by
  cases i
  case mrOr | mrOrRc =>
    rw [Instr.wf, Bool.and_eq_true, beq_iff_eq] at hwf
    rw [encode, rsOf_encodeX, rbOf_encodeX]
    exact hwf.2
  all_goals cases hrow

/-- The instruction read matches its own row. -/
theorem hits_tableRow_decodeWord (code : Word) (simplified : Bool) :
    (tableRow (decodeWord code simplified)).hits code simplified = true := by
  have hread := readsAs_decodeWord code simplified
  have hmask := encode_and_mask (decodeWord code simplified)
  have hrs := rs_eq_rb_of_needsRsEqRb hread.wf
  rw [hread.encode_eq] at hmask hrs
  exact hits_iff.2 ⟨hmask, simplified_of_needsSimplified hread.wf, hrs⟩

/-- A word's primary opcode stands in the top six bits, which every mask of the table but that of `dc.l` keeps. -/
theorem opcOf_and {code mask : Word} (hmask : mask.extractLsb' 26 6 = BitVec.allOnes 6) :
    opcOf (code &&& mask) = opcOf code := by
  rw [opcOf, BitVec.extractLsb'_and, hmask, BitVec.and_allOnes, opcOf]

section rows
variable {code : Word} {simplified : Bool}

/-- The mask of the rows with three register fields keeps the two opcodes and the record bit. -/
theorem encodeX_of_mask_eq {e : BitVec 10} {rc : Bool} (h : code &&& 0xFC0007FF = encodeX 0 0 0 e rc) :
    encodeX (rsOf code) (raOf code) (rbOf code) e rc = code := by
  have hopc : opcOf code = opcExt := by
    rw [← opcOf_and (mask := 0xFC0007FF) (by decide), h, opcOf_encodeX]
  have hfields := encodeX_of_fields hopc
  rw [← hfields, encodeX_and_mask] at h
  rw [← show extOpcOf code = e by simpa using congrArg extOpcOf h,
    ← show rcOf code = rc by simpa using congrArg rcOf h, hfields]

/-- The mask of the rows with two register fields keeps `rb` too. -/
theorem encodeX_and_mask_keeps_rb (rs ra rb : RegNum) (e : BitVec 10) (rc : Bool) :
    encodeX rs ra rb e rc &&& 0xFC00FFFF = encodeX 0 0 rb e rc := by
  apply BitVec.eq_of_getLsbD_eq
  intro i hi
  have h : i < 32 := hi
  rw [BitVec.getLsbD_and]
  interval_cases i <;> simp [encodeX, opcExt]

theorem encodeX_of_mask_rb_eq {e : BitVec 10} {rc : Bool} (h : code &&& 0xFC00FFFF = encodeX 0 0 0 e rc) :
    encodeX (rsOf code) (raOf code) 0 e rc = code := by
  have hopc : opcOf code = opcExt := by
    rw [← opcOf_and (mask := 0xFC00FFFF) (by decide), h, opcOf_encodeX]
  have hfields := encodeX_of_fields hopc
  rw [← hfields, encodeX_and_mask_keeps_rb] at h
  rw [← show rbOf code = 0 by simpa using congrArg rbOf h, ← show extOpcOf code = e by simpa using congrArg extOpcOf h,
    ← show rcOf code = rc by simpa using congrArg rcOf h, hfields]

/-- A row with three register fields that matches a word is the row of the instruction read, where its constructor is
well formed for all fields. -/
theorem beatenOrRead_three {mk : RegNum → RegNum → RegNum → Instr} {e : BitVec 10} {rc : Bool} {row : TableRow}
    (henc : ∀ rs ra rb, encode (mk rs ra rb) = encodeX rs ra rb e rc)
    (hwf : ∀ rs ra rb, (mk rs ra rb).wf simplified = true) (hrow : ∀ rs ra rb, tableRow (mk rs ra rb) = row)
    (hmask : row.mask = 0xFC0007FF) (hpattern : row.pattern = encodeX 0 0 0 e rc) :
    ∀ rs ra rb, (tableRow (mk rs ra rb)).hits code simplified = true →
      BeatenOrRead code simplified (tableRow (mk rs ra rb)) := by
  intro rs ra rb hhits
  obtain ⟨hbits, _⟩ := hits_iff.1 hhits
  rw [hrow, hmask, hpattern] at hbits
  rw [hrow, ← hrow (rsOf code) (raOf code) (rbOf code)]
  exact beatenOrRead_of_encode (hwf _ _ _) ((henc _ _ _).trans (encodeX_of_mask_eq hbits))

/-- The same for a row with two register fields. -/
theorem beatenOrRead_two {mk : RegNum → RegNum → Instr} {e : BitVec 10} {rc : Bool} {row : TableRow}
    (henc : ∀ rs ra, encode (mk rs ra) = encodeX rs ra 0 e rc) (hwf : ∀ rs ra, (mk rs ra).wf simplified = true)
    (hrow : ∀ rs ra, tableRow (mk rs ra) = row) (hmask : row.mask = 0xFC00FFFF)
    (hpattern : row.pattern = encodeX 0 0 0 e rc) :
    ∀ rs ra, (tableRow (mk rs ra)).hits code simplified = true →
      BeatenOrRead code simplified (tableRow (mk rs ra)) := by
  intro rs ra hhits
  obtain ⟨hbits, _⟩ := hits_iff.1 hhits
  rw [hrow, hmask, hpattern] at hbits
  rw [hrow, ← hrow (rsOf code) (raOf code)]
  exact beatenOrRead_of_encode (hwf _ _) ((henc _ _).trans (encodeX_of_mask_rb_eq hbits))

/-- The idiom's word is that of `or`, and its row comes first (R39, R139). -/
theorem beatenOrRead_or {mk mkMove : RegNum → RegNum → RegNum → Instr} {rc : Bool} {row : TableRow}
    (henc : ∀ rs ra rb, encode (mk rs ra rb) = encodeX rs ra rb 444 rc)
    (hencMove : ∀ rs ra rb, encode (mkMove rs ra rb) = encodeX rs ra rb 444 rc)
    (hwf : ∀ rs ra rb, (mk rs ra rb).wf simplified = !(simplified && rs == rb))
    (hwfMove : ∀ rs ra rb, (mkMove rs ra rb).wf simplified = (simplified && rs == rb))
    (hrow : ∀ rs ra rb, tableRow (mk rs ra rb) = row)
    (hfirst : ∀ rs ra rb, (tableRow (mkMove rs ra rb)).priority < row.priority)
    (hmask : row.mask = 0xFC0007FF) (hpattern : row.pattern = encodeX 0 0 0 444 rc)
    (hhits : row.hits code simplified = true) : BeatenOrRead code simplified row := by
  obtain ⟨hbits, _⟩ := hits_iff.1 hhits
  rw [hmask, hpattern] at hbits
  have hcode := encodeX_of_mask_eq hbits
  cases hidiom : simplified && rsOf code == rbOf code with
  | true =>
    exact beatenOrRead_of_lt ((hwfMove _ (raOf code) _).trans hidiom) ((hencMove _ _ _).trans hcode) (hfirst _ _ _)
  | false =>
    rw [← hrow (rsOf code) (raOf code) (rbOf code)]
    exact beatenOrRead_of_encode ((hwf _ _ _).trans (by rw [hidiom]; rfl)) ((henc _ _ _).trans hcode)

/-- The move-register idiom's own row. -/
theorem beatenOrRead_move {mk : RegNum → RegNum → RegNum → Instr} {rc : Bool} {row : TableRow}
    (henc : ∀ rs ra rb, encode (mk rs ra rb) = encodeX rs ra rb 444 rc)
    (hwf : ∀ rs ra rb, (mk rs ra rb).wf simplified = (simplified && rs == rb))
    (hrow : ∀ rs ra rb, tableRow (mk rs ra rb) = row) (hmask : row.mask = 0xFC0007FF)
    (hpattern : row.pattern = encodeX 0 0 0 444 rc) (hsimp : row.needsSimplified = true)
    (hsrc : row.needsRsEqRb = true) (hhits : row.hits code simplified = true) : BeatenOrRead code simplified row := by
  obtain ⟨hbits, hsimplified, hequal⟩ := hits_iff.1 hhits
  rw [hmask, hpattern] at hbits
  rw [← hrow (rsOf code) (raOf code) (rbOf code)]
  refine beatenOrRead_of_encode ?_ ((henc _ _ _).trans (encodeX_of_mask_eq hbits))
  rw [hwf, hsimplified hsimp, hequal hsrc, beq_self_eq_true, Bool.and_true]

/-- The masks of format `FMT_D` cut a word down to its opcode and the fields they keep. -/
theorem and_mask_opc_eq (code : Word) : code &&& 0xFC000000 = encodeD (opcOf code) 0 0 0 := by
  rw [← encodeD_and_mask _ (rsOf code) (raOf code) (immOf code), encodeD_of_fields]

theorem and_mask_opc_ra_eq (code : Word) : code &&& 0xFC1F0000 = encodeD (opcOf code) 0 (raOf code) 0 := by
  apply BitVec.eq_of_getLsbD_eq
  intro i hi
  have h : i < 32 := hi
  rw [BitVec.getLsbD_and]
  interval_cases i <;> simp [encodeD, opcOf, raOf]

/-- Add-immediate: `li` comes before `addi` (R39 step 2). -/
theorem beatenOrRead_addi (hopc : opcOf code = defaultConfig.opcAddi) (rd ra : RegNum) (imm : BitVec 16) :
    BeatenOrRead code simplified (tableRow (.addi rd ra imm)) := by
  rw [BeatenOrRead, decodeWord_of_addi hopc, decodeAddi]
  split
  · exact .inr (by decide : 1 < 2)
  · exact .inl rfl

theorem beatenOrRead_li (hopc : opcOf code = defaultConfig.opcAddi) (hra : raOf code = 0) (hsimp : simplified = true)
    (rd : RegNum) (imm : BitVec 16) : BeatenOrRead code simplified (tableRow (.li rd imm)) := by
  rw [BeatenOrRead, decodeWord_of_addi hopc, decodeAddi, if_pos ⟨hra, hsimp⟩]
  exact .inl rfl

/-- Or-immediate: `nop`, then `mr`, then `ori` (R39 step 3). -/
theorem beatenOrRead_ori (hopc : opcOf code = opcOri) (rs ra : RegNum) (imm : BitVec 16) :
    BeatenOrRead code simplified (tableRow (.ori rs ra imm)) := by
  rw [BeatenOrRead, decodeWord_of_ori hopc, decodeOri]
  split
  · exact .inr (by decide : 1 < 3)
  · split
    · exact .inr (by decide : 2 < 3)
    · exact .inl rfl

theorem beatenOrRead_mrOri (hopc : opcOf code = opcOri) (himm : immOf code = 0) (hsimp : simplified = true)
    (rs ra : RegNum) : BeatenOrRead code simplified (tableRow (.mrOri rs ra)) := by
  rw [BeatenOrRead, decodeWord_of_ori hopc, decodeOri]
  split
  · exact .inr (by decide : 1 < 2)
  · rw [if_pos ⟨himm, hsimp⟩]
    exact .inl rfl

/-- The branches: `AA` and `LK` tell the four rows apart (R39 step 4). -/
theorem beatenOrRead_branch {mk : BitVec 24 → Instr} {aa lk : Bool} {row : TableRow}
    (henc : ∀ li24, encode (mk li24) = encodeI defaultConfig.opcB li24 aa lk)
    (hwf : ∀ li24, (mk li24).wf simplified = true) (hrow : ∀ li24, tableRow (mk li24) = row)
    (hmask : row.mask = 0xFC000003) (hpattern : row.pattern = encodeI defaultConfig.opcB 0 aa lk) :
    ∀ li24, (tableRow (mk li24)).hits code simplified = true →
      BeatenOrRead code simplified (tableRow (mk li24)) := by
  intro li24 hhits
  obtain ⟨hbits, _⟩ := hits_iff.1 hhits
  have hfields := encodeI_of_fields code
  rw [hrow, hmask, hpattern, ← hfields, encodeI_and_mask] at hbits
  rw [show opcOf code = defaultConfig.opcB by simpa using congrArg opcOf hbits,
    show aaOf code = aa by simpa using congrArg aaOf hbits, show lkOf code = lk by simpa using congrArg lkOf hbits]
    at hfields
  rw [hrow, ← hrow (li24Of code)]
  exact beatenOrRead_of_encode (hwf _) ((henc _).trans hfields)

/-- The row of `dc.l` matches every word and comes last. -/
theorem beatenOrRead_dcl (c : Word) : BeatenOrRead code simplified (tableRow (.dcl c)) := by
  rw [BeatenOrRead]
  cases decodeWord code simplified
  case dcl => exact .inl rfl
  all_goals exact .inr (Nat.lt_of_sub_ne_zero nofun)

end rows

/-- Every row that matches a word is the row of the instruction read, or comes after it. -/
theorem beatenOrRead_of_hits (code : Word) (simplified : Bool) (j : Instr) :
    (tableRow j).hits code simplified = true → BeatenOrRead code simplified (tableRow j) := by
  apply j.casesOn (motive := fun j =>
    (tableRow j).hits code simplified = true → BeatenOrRead code simplified (tableRow j))
  case li =>
    intro rd imm hhits
    obtain ⟨hbits, hsimp, _⟩ := hits_iff.1 hhits
    have hD : encodeD (opcOf code) 0 (raOf code) 0 = encodeD defaultConfig.opcAddi 0 0 0 :=
      (and_mask_opc_ra_eq code).symm.trans hbits
    exact beatenOrRead_li (by simpa using congrArg opcOf hD) (by simpa using congrArg raOf hD) (hsimp rfl) rd imm
  case addi =>
    intro rd ra imm hhits
    have hD : encodeD (opcOf code) 0 0 0 = encodeD defaultConfig.opcAddi 0 0 0 :=
      (and_mask_opc_eq code).symm.trans (hits_iff.1 hhits).1
    exact beatenOrRead_addi (by simpa using congrArg opcOf hD) rd ra imm
  case nop =>
    intro hhits
    obtain ⟨hbits, hsimp, _⟩ := hits_iff.1 hhits
    have hall : code &&& BitVec.allOnes 32 = 0x60000000#32 := hbits
    rw [BitVec.and_allOnes] at hall
    exact beatenOrRead_of_encode (hsimp rfl) (encodeD_opcOri_zero.trans hall.symm)
  case mrOri =>
    intro rs ra hhits
    obtain ⟨hbits, hsimp, _⟩ := hits_iff.1 hhits
    obtain ⟨hopc, himm⟩ := (ori_mask_eq_iff code).2 hbits
    exact beatenOrRead_mrOri hopc himm (hsimp rfl) rs ra
  case ori =>
    intro rs ra imm hhits
    have hD : encodeD (opcOf code) 0 0 0 = encodeD opcOri 0 0 0 :=
      (and_mask_opc_eq code).symm.trans (hits_iff.1 hhits).1
    exact beatenOrRead_ori (by simpa using congrArg opcOf hD) rs ra imm
  case b | bl | ba | bla =>
    exact beatenOrRead_branch (fun _ => rfl) (fun _ => rfl) (fun _ => rfl) rfl rfl
  case mrOr =>
    intro rs ra rb
    exact beatenOrRead_move (mk := .mrOr) (fun _ _ _ => rfl) (fun _ _ _ => rfl) (fun _ _ _ => rfl) rfl rfl rfl rfl
  case mrOrRc =>
    intro rs ra rb
    exact beatenOrRead_move (mk := .mrOrRc) (fun _ _ _ => rfl) (fun _ _ _ => rfl) (fun _ _ _ => rfl) rfl rfl rfl rfl
  case or =>
    intro rs ra rb
    exact beatenOrRead_or (mk := .or) (mkMove := .mrOr) (fun _ _ _ => rfl) (fun _ _ _ => rfl) (fun _ _ _ => rfl)
      (fun _ _ _ => rfl) (fun _ _ _ => rfl) (fun _ _ _ => (by decide : 1 < 2)) rfl rfl
  case orRc =>
    intro rs ra rb
    exact beatenOrRead_or (mk := .orRc) (mkMove := .mrOrRc) (fun _ _ _ => rfl) (fun _ _ _ => rfl) (fun _ _ _ => rfl)
      (fun _ _ _ => rfl) (fun _ _ _ => rfl) (fun _ _ _ => (by decide : 1 < 2)) rfl rfl
  case neg | negRc | negOe | negOeRc | subfze | subfzeRc | subfzeOe | subfzeOeRc | subfme | subfmeRc | subfmeOe
    | subfmeOeRc | abs | absRc | absOe | absOeRc | nabs | nabsRc | nabsOe | nabsOeRc =>
    exact beatenOrRead_two (fun _ _ => rfl) (fun _ _ => rfl) (fun _ _ => rfl) rfl rfl
  case dcl => exact fun c _ => beatenOrRead_dcl c
  all_goals exact beatenOrRead_three (fun _ _ _ => rfl) (fun _ _ _ => rfl) (fun _ _ _ => rfl) rfl rfl

/-- Settles O12: the instruction read matches its own row, and no other row that matches comes before it. -/
theorem decodedInstructionHasTheWinningTableRow : Obligations.DecodedInstructionHasTheWinningTableRow :=
  fun code simplified => ⟨hits_tableRow_decodeWord code simplified, beatenOrRead_of_hits code simplified⟩

end Sys2Proof.Machine

/-! PROOFS. What a step runs (42_dispatch.md section 1), the words a host presents (92_eei_decisions.md D1, D26), the bytes
of a word (20_memory.md section 2), and sample words of each family. -/

namespace Sys2Proof.Machine

/-- A step on a `Decode` runs the instruction read, with the action consumed. -/
theorem step_eq_exec {s : State} {code : Word} {simplified : Bool} {rest : List HostAction}
    (hp : s.pending = .decode code simplified :: rest) :
    step s = exec (decodeWord code simplified) (s.withPending rest) := by
  rw [step, hp]

/-- Settles O7. -/
theorem stepRunsTheDecodedInstruction : Obligations.StepRunsTheDecodedInstruction := by
  rintro s code simplified rest i hp rfl
  exact ⟨decodingGivesAWellFormedInstruction code simplified, step_eq_exec hp⟩

/-- A table word of 32 bits reads as an instruction, because its four bytes are a whole word (R30). -/
theorem decodeTableWord_eq {w : Nat} (hw : w < 2 ^ 32) :
    decodeTableWord 32 w = some (decodeWord (BitVec.ofNat 32 w) true) := by
  have hbytes := decodeBytes_bytesOfWord (BitVec.ofNat 32 w) [] true
  rw [List.append_nil] at hbytes
  rw [decodeTableWord, Nat.mod_eq_of_lt hw, if_pos hw, hbytes]

/-- Settles O8: the next step runs the word that `withFetchWord` has put first. -/
theorem fetchWordRunsAsTheNextInstruction : Obligations.FetchWordRunsAsTheNextInstruction := by
  intro s w hw
  refine ⟨_, decodeTableWord_eq hw, rfl, ?_⟩
  have hp : (s.withFetchWord 32 w).pending = .decode (BitVec.ofNat 32 w) true :: s.pending := by
    rw [State.withFetchWord, Nat.mod_eq_of_lt hw]
  exact step_eq_exec hp

/-- Settles O13: each word is written out, so its reading is computed. -/
theorem sampleWordsReadAsTheirInstructions : Obligations.SampleWordsReadAsTheirInstructions := by
  unfold Obligations.SampleWordsReadAsTheirInstructions
  decide

/-- A word's value from its four bytes, each byte a part of the value (R22). -/
theorem toNat_eq_of_bytes (code : Word) :
    code.toNat = (code.extractLsb' 24 8).toNat * 2 ^ 24 + (code.extractLsb' 16 8).toNat * 2 ^ 16 +
      (code.extractLsb' 8 8).toNat * 2 ^ 8 + (code.extractLsb' 0 8).toNat := by
  have hlt := code.isLt
  simp only [BitVec.extractLsb'_toNat, Nat.shiftRight_eq_div_pow]
  omega

/-- Fewer than four bytes are no instruction (R30). -/
theorem decodeBytes_of_short {bytes : List Byte} (h : bytes.length < 4) (simplified : Bool) :
    decodeBytes bytes simplified = .error .truncated := by
  unfold decodeBytes
  split
  · simp only [List.length_cons] at h
    omega
  · rfl

/-- Settles O14: a word gives the bytes back that it was assembled from, and its value is that of its bytes. -/
theorem bytesOfAWordAreBigEndian : Obligations.BytesOfAWordAreBigEndian := by
  refine ⟨fun b0 b1 b2 b3 => ?word, fun bytes simplified h => decodeBytes_of_short h simplified⟩
  case word =>
    have hbytes := bytesOfWord_wordOfBytes b0 b1 b2 b3
    have hvalue := toNat_eq_of_bytes (wordOfBytes b0 b1 b2 b3)
    obtain ⟨h0, h1, h2, h3⟩ : _ ∧ _ ∧ _ ∧ _ := by simpa only [bytesOfWord, List.cons.injEq, and_true] using hbytes
    rw [h0, h1, h2, h3] at hvalue
    exact ⟨hvalue, h0, hbytes, fun _ _ => rfl⟩

end Sys2Proof.Machine

/-! PROOFS. The handlers' records for all legal parameters (43 to 48): the immediates, the branches and the families with
a ROM, and on which of its inputs a record depends. -/

namespace Sys2Proof.Machine

/-- `H_ORI` answers `nop` exactly in its first case (R83). -/
theorem handleOri_mnem_eq_nop_iff (code : Word) (simplified : Bool) :
    (handleOri code simplified).mnem = "nop" ↔
      rsOf code = 0 ∧ raOf code = 0 ∧ immOf code = 0 ∧ simplified = true := by
  obtain ⟨hnop, heq⟩ | ⟨⟨_, hregs, _⟩, heq⟩ | ⟨hori, heq⟩ := handleOri_cases code simplified <;> rw [heq]
  · exact iff_of_true rfl hnop
  · exact iff_of_false (by decide : "mr" ≠ "nop") fun ⟨hrs, hra, _⟩ => hregs ⟨hrs, hra⟩
  · exact iff_of_false (by decide : "ori" ≠ "nop") fun ⟨_, _, himm, hsimp⟩ => hori ⟨himm, hsimp⟩

/-- `H_ORI` answers `ori` exactly in its third case (R82). -/
theorem handleOri_eq_ori_iff (code : Word) (simplified : Bool) :
    handleOri code simplified = ⟨false, "ori", [.gpr (rsOf code), .gpr (raOf code), .imm16 (immOf code)]⟩ ↔
      immOf code ≠ 0 ∨ simplified = false := by
  rw [← Bool.not_eq_true, ← not_and_or]
  obtain ⟨⟨_, _, himm, hsimp⟩, heq⟩ | ⟨⟨himm, _, hsimp⟩, heq⟩ | ⟨hori, heq⟩ := handleOri_cases code simplified <;>
    rw [heq]
  · exact iff_of_false (by simp) (not_not.2 ⟨himm, hsimp⟩)
  · exact iff_of_false (by simp) (not_not.2 ⟨himm, hsimp⟩)
  · exact iff_of_true rfl hori

/-- The words of or-immediate with `imm = 0`, numbered by their two register fields (R84). -/
def oriWord (n : Nat) : Word := 0x60000000#32 ||| BitVec.ofNat 32 (n * 2 ^ 16)

theorem toNat_oriWord {n : Nat} (hn : n < 1024) : (oriWord n).toNat = 24 * 2 ^ 26 + n * 2 ^ 16 := by
  have hlow : n * 2 ^ 16 < 2 ^ 26 := by omega
  rw [oriWord, BitVec.toNat_or, BitVec.toNat_ofNat, BitVec.toNat_ofNat,
    Nat.mod_eq_of_lt (by omega : n * 2 ^ 16 < 2 ^ 32), Nat.mul_comm 24, Nat.two_pow_add_eq_or_of_lt hlow]

theorem opcOf_oriWord {n : Nat} (hn : n < 1024) : opcOf (oriWord n) = opcOri := by
  apply BitVec.eq_of_toNat_eq
  rw [opcOf, BitVec.extractLsb'_toNat, toNat_oriWord hn, Nat.shiftRight_eq_div_pow]
  change (24 * 2 ^ 26 + n * 2 ^ 16) / 2 ^ 26 % 2 ^ 6 = 24
  omega

theorem immOf_oriWord {n : Nat} (hn : n < 1024) : immOf (oriWord n) = 0 := by
  apply BitVec.eq_of_toNat_eq
  rw [immOf, BitVec.extractLsb'_toNat, toNat_oriWord hn, Nat.shiftRight_eq_div_pow]
  change (24 * 2 ^ 26 + n * 2 ^ 16) / 2 ^ 0 % 2 ^ 16 = 0
  omega

theorem oriWord_eq_nop_iff {n : Nat} (hn : n < 1024) : oriWord n = 0x60000000#32 ↔ n = 0 := by
  rw [← BitVec.toNat_inj, toNat_oriWord hn]
  simp only [BitVec.toNat_ofNat]
  omega

/-- The word with both register fields zero is the one that is `nop` (R83). -/
theorem oriWord_registers_zero_iff {n : Nat} (hn : n < 1024) :
    rsOf (oriWord n) = 0 ∧ raOf (oriWord n) = 0 ↔ n = 0 := by
  rw [← oriWord_eq_nop_iff hn, ← fields_eq_nop_iff]
  simp [opcOf_oriWord hn, immOf_oriWord hn]

/-- Over the pairs of register fields one word is `nop`. -/
theorem oriWord_mnem_eq_nop_iff {cfg : Config} (facts : ConfigFacts cfg) {n : Nat} (hn : n < 1024) :
    (decodeRecord cfg (oriWord n) 0 true).mnem = "nop" ↔ n = 0 := by
  rw [decodeRecord_of_ori facts (opcOf_oriWord hn), handleOri_mnem_eq_nop_iff, ← oriWord_registers_zero_iff hn]
  simp [immOf_oriWord hn]

/-- Every other word of the pairs is `mr`. -/
theorem oriWord_mnem_eq_mr_iff {cfg : Config} (facts : ConfigFacts cfg) {n : Nat} (hn : n < 1024) :
    (decodeRecord cfg (oriWord n) 0 true).mnem = "mr" ↔ ¬n = 0 := by
  rw [decodeRecord_of_ori facts (opcOf_oriWord hn), handleOri_mnem_eq_mr_iff, ← oriWord_registers_zero_iff hn]
  simp [immOf_oriWord hn]

/-- Of the numbers below `n` one is zero. -/
theorem countP_range_eq_zero {n : Nat} (hn : 0 < n) : (List.range n).countP (· == 0) = 1 :=
  List.count_eq_one_of_mem List.nodup_range (List.mem_range.2 hn)

/-- Settles O33: the three cases of `H_ORI`, and their count over the two register fields. -/
theorem orImmediateArmsPartitionItsWords : Obligations.OrImmediateArmsPartitionItsWords := by
  intro cfg hok
  have facts := configFacts hok
  refine ⟨fun code addr simplified hopc => ?arms, ?countNop, ?countMr⟩
  case arms =>
    rw [decodeRecord_of_ori facts hopc]
    exact ⟨handleOri_mnem_eq_nop_iff code simplified, handleOri_mnem_eq_mr_iff code simplified,
      (handleOri_eq_ori_iff code simplified).symm⟩
  case countNop =>
    refine (List.countP_congr fun n hn => ?_).trans (countP_range_eq_zero (n := 1024) (by decide))
    rw [beq_iff_eq, beq_iff_eq]
    exact oriWord_mnem_eq_nop_iff facts (List.mem_range.1 hn)
  case countMr =>
    have hsum := List.length_eq_countP_add_countP (· == 0) (l := List.range 1024)
    rw [List.length_range, countP_range_eq_zero (by decide)] at hsum
    refine (List.countP_congr fun n hn => ?_).trans (Nat.add_left_cancel (m := 1023) hsum).symm
    rw [beq_iff_eq, decide_eq_true_eq, beq_iff_eq]
    exact oriWord_mnem_eq_mr_iff facts (List.mem_range.1 hn)

/-- A word of opcode `OPC_ADDI` goes to `H_ADDI` (R71). -/
theorem decodeRecord_of_addi {cfg : Config} {code : Word} (hopc : opcOf code = cfg.opcAddi) (addr : Word)
    (simplified : Bool) : decodeRecord cfg code addr simplified = handleAddi code simplified := by
  rw [decodeRecord, hopc, dispatch_opcAddi]

/-- A word of opcode `OPC_B` goes to `H_B` (R71). -/
theorem decodeRecord_of_branch {cfg : Config} (facts : ConfigFacts cfg) {code : Word} (hopc : opcOf code = cfg.opcB)
    (addr : Word) (simplified : Bool) : decodeRecord cfg code addr simplified = handleBranch code addr := by
  rw [decodeRecord, hopc, dispatch_opcB facts]

theorem handleAddi_of_li {code : Word} {simplified : Bool} (h : raOf code = 0 ∧ simplified = true) :
    handleAddi code simplified = ⟨false, "li", [.gpr (rsOf code), .imm16 (immOf code)]⟩ := by
  rw [handleAddi, if_pos h]

theorem handleAddi_of_addi {code : Word} {simplified : Bool} (h : ¬(raOf code = 0 ∧ simplified = true)) :
    handleAddi code simplified = ⟨false, "addi", [.gpr (rsOf code), .gpr (raOf code), .imm16 (immOf code)]⟩ := by
  rw [handleAddi, if_neg h]

/-- Settles O34: the two outcomes of `H_ADDI`, for any number of its opcode. -/
theorem addImmediateReadsAsLiOrAddi : Obligations.AddImmediateReadsAsLiOrAddi := by
  refine ⟨fun cfg _ code addr simplified hopc => ?arms, fun addr => ?examples⟩
  case arms =>
    rw [decodeRecord_of_addi hopc]
    refine ⟨handleAddi_of_li, fun h => handleAddi_of_addi ?_⟩
    rwa [not_and_or, Bool.not_eq_true]
  case examples =>
    constructor <;> rw [decodeText, decodeRecord_of_addi (by decide)] <;> decide

/-- The mnemonic of a branch, by `LK` and `AA` (R90). -/
theorem branchMnemonic_eq (aa lk : Bool) :
    branchMnemonic aa lk = "b" ++ (if lk then "l" else "") ++ (if aa then "a" else "") := by
  cases aa <;> cases lk <;> decide

/-- The displacement has two zero bits below (R34). -/
theorem toNat_displacement_mod (li24 : BitVec 24) : ((li24 ++ 0#2).signExtend 32).toNat % 4 = 0 := by
  have hlow : ((li24 ++ 0#2).signExtend 32).setWidth 2 = 0 := by
    apply BitVec.eq_of_getLsbD_eq
    intro i hi
    rw [BitVec.getLsbD_setWidth, BitVec.getLsbD_signExtend, if_pos (by omega), BitVec.getLsbD_append, if_pos hi]
    simp
  simpa using congrArg BitVec.toNat hlow

/-- Settles O35: the target is the displacement, added to the cursor for the relative branches. -/
theorem branchTargetIsCursorPlusSignExtendedField : Obligations.BranchTargetIsCursorPlusSignExtendedField := by
  intro cfg hok code addr simplified hopc
  have hlow := toNat_displacement_mod (li24Of code)
  rw [decodeRecord_of_branch (configFacts hok) hopc, handleBranch, branchDisplacement_eq_signExtend_li24,
    branchMnemonic_eq]
  refine ⟨_, rfl, fun haa => ?absolute, fun haa => ?relative⟩
  case absolute =>
    rw [haa, if_pos rfl]
    exact ⟨rfl, hlow⟩
  case relative =>
    rw [haa, if_neg Bool.false_ne_true]
    refine ⟨rfl, ?_⟩
    rw [BitVec.toNat_add]
    omega

/-- Settles O36: `SUBFAM` and `LDSTFAM` at an index with an entry. -/
theorem subtractAndLoadStoreRecordsFollowTheirRoms : Obligations.SubtractAndLoadStoreRecordsFollowTheirRoms := by
  intro cfg hok code addr simplified m hopc
  have facts := configFacts hok
  refine ⟨fun hsel hrom hidx => ?three, fun hsel hrom hidx hrb => ?two, fun hsel hrc hrom hint => ?integer,
    fun hsel hrc hrom hfp hlast => ?floating⟩
  case three =>
    rw [← twoOperandIndex_iff, Bool.not_eq_true] at hidx
    exact (decodeRecord_of_subtract facts hopc hsel addr simplified).trans (handleSubtract_of_three hrom hidx)
  case two =>
    rw [← twoOperandIndex_iff] at hidx
    exact (decodeRecord_of_subtract facts hopc hsel addr simplified).trans (handleSubtract_of_two hrom hidx hrb)
  case integer =>
    exact (decodeRecord_of_loadStore facts hopc hsel addr simplified).trans (handleLoadStore_of_int hrom hrc hint)
  case floating =>
    exact (decodeRecord_of_loadStore facts hopc hsel addr simplified).trans (handleLoadStore_of_fp hrom hrc hfp hlast)

/-- A relative branch has different records at different addresses, because the sum with the displacement can be undone
(R91; D2). -/
theorem decodeRecord_ne_of_relativeBranch {cfg : Config} (facts : ConfigFacts cfg) {code addr addr' : Word}
    (hrel : RelativeBranch cfg code) (hne : addr ≠ addr') (simplified : Bool) :
    decodeRecord cfg code addr simplified ≠ decodeRecord cfg code addr' simplified := by
  obtain ⟨hopc, haa⟩ := hrel
  rw [decodeRecord_of_branch facts hopc, decodeRecord_of_branch facts hopc]
  simpa [handleBranch, haa] using hne

/-- The words with a simplified mnemonic (R64, R78). -/
def HasSimplifiedForm (cfg : Config) (code : Word) : Prop :=
  (opcOf code = cfg.opcAddi ∧ raOf code = 0) ∨ (opcOf code = 24 ∧ immOf code = 0) ∨
    (opcOf code = 31 ∧ extOpcOf code = 444 ∧ rsOf code = rbOf code)

/-- The selector and the index of `or` are its extended opcode (R137). -/
theorem extOpcOf_of_logical_or {code : Word} (hsel : selOf code = selLogical) (hidx : idx5Of code = idxOr) :
    extOpcOf code = 444 := by
  rw [extOpcOf_eq_idx5_sel, hsel, hidx]
  decide

/-- Where the word is not the idiom's, `H_EXT` does not read `simplified` (R130, R139). -/
theorem handleExt_setting_irrelevant (cfg : Config) {code : Word}
    (h : ¬(extOpcOf code = 444 ∧ rsOf code = rbOf code)) : handleExt cfg code true = handleExt cfg code false := by
  unfold handleExt
  split_ifs with hsub hlogic
  · rfl
  · have hno (simplified : Bool) : ¬(idx5Of code = idxOr ∧ rsOf code = rbOf code ∧ simplified = true) :=
      fun ⟨hidx, hsrc, _⟩ => h ⟨extOpcOf_of_logical_or hlogic hidx, hsrc⟩
    rw [handleLogical, handleLogical, if_neg (hno true), if_neg (hno false)]
  · rfl
  · rfl

/-- The record of a word with no simplified form is the same under both settings, by the handler its opcode selects. -/
theorem decodeRecord_setting_irrelevant {cfg : Config} {code : Word} (h : ¬HasSimplifiedForm cfg code) (addr : Word) :
    decodeRecord cfg code addr true = decodeRecord cfg code addr false := by
  unfold decodeRecord
  cases hd : dispatch cfg (opcOf code) with
  | addi =>
    have hra : ¬raOf code = 0 := fun hra => h (.inl ⟨opc_of_dispatch_addi hd, hra⟩)
    show handleAddi code true = handleAddi code false
    rw [handleAddi_of_addi fun hli => hra hli.1, handleAddi_of_addi fun hli => hra hli.1]
  | ori =>
    have himm : ¬immOf code = 0 := fun himm => h (.inr (.inl ⟨opc_of_dispatch_ori hd, himm⟩))
    show handleOri code true = handleOri code false
    rw [(handleOri_eq_ori_iff code true).2 (.inl himm), (handleOri_eq_ori_iff code false).2 (.inl himm)]
  | ext => exact handleExt_setting_irrelevant cfg fun hor => h (.inr (.inr ⟨opc_of_dispatch_ext hd, hor⟩))
  | branch | illegal => rfl

/-- A word with a simplified form has different mnemonics under the two settings. -/
theorem decodeRecord_ne_of_hasSimplifiedForm {cfg : Config} (facts : ConfigFacts cfg) {code : Word}
    (h : HasSimplifiedForm cfg code) (addr : Word) :
    decodeRecord cfg code addr true ≠ decodeRecord cfg code addr false := by
  refine fun heq => absurd (congrArg Decoded.mnem heq) ?_
  obtain ⟨hopc, hra⟩ | ⟨hopc, himm⟩ | ⟨hopc, hext, hsrc⟩ := h
  · rw [decodeRecord_of_addi hopc, decodeRecord_of_addi hopc, handleAddi_of_li ⟨hra, rfl⟩,
      handleAddi_of_addi (by simp)]
    exact (by decide : "li" ≠ "addi")
  · have hori : (handleOri code true).mnem ≠ "ori" := by
      obtain ⟨_, heq⟩ | ⟨_, heq⟩ | ⟨hno, _⟩ := handleOri_cases code true
      · rw [heq]
        exact (by decide : "nop" ≠ "ori")
      · rw [heq]
        exact (by decide : "mr" ≠ "ori")
      · exact absurd ⟨himm, rfl⟩ hno
    rw [decodeRecord_of_ori facts hopc, decodeRecord_of_ori facts hopc, (handleOri_eq_ori_iff code false).2 (.inr rfl)]
    exact hori
  · rw [decodeRecord_or_of_eq (hopc ▸ dispatch_opcExt facts) hext hsrc,
      decodeRecord_or_of_ne facts hopc hext (.inr rfl)]
    show (if rcOf code then "mr." else "mr") ≠ "or" ++ (if rcOf code then "." else "")
    cases rcOf code <;> decide

/-- The ROM contents are read in the extended group only (R17, R78). -/
theorem decodeRecord_roms_irrelevant (cfg : Config) {code : Word} (hopc : opcOf code ≠ opcExt)
    (subRom logicRom ldstRom : Rom) (addr : Word) (simplified : Bool) :
    decodeRecord { cfg with subRom := subRom, logicRom := logicRom, ldstRom := ldstRom } code addr simplified =
      decodeRecord cfg code addr simplified := by
  have hdispatch : dispatch { cfg with subRom := subRom, logicRom := logicRom, ldstRom := ldstRom } (opcOf code) =
      dispatch cfg (opcOf code) := rfl
  unfold decodeRecord
  rw [hdispatch]
  cases hd : dispatch cfg (opcOf code) with
  | ext => exact absurd (opc_of_dispatch_ext hd) hopc
  | addi | ori | branch | illegal => rfl

/-- Settles O42: for each input, the words whose record depends on it and the words whose record does not. -/
theorem recordDependsOnAddressAndSettingOnlyWhereSaid : Obligations.RecordDependsOnAddressAndSettingOnlyWhereSaid := by
  intro cfg hok code addr addr' simplified
  have facts := configFacts hok
  refine ⟨fun hne => ⟨fun hdiff => ?_, fun hrel => decodeRecord_ne_of_relativeBranch facts hrel hne simplified⟩,
    ⟨fun hdiff => ?_, fun hform => decodeRecord_ne_of_hasSimplifiedForm facts hform addr⟩,
    fun subRom logicRom ldstRom hopc => decodeRecord_roms_irrelevant cfg hopc subRom logicRom ldstRom addr simplified⟩
  · exact by_contra fun hrel => hdiff (decodeRecord_addr_irrelevant hrel addr addr' simplified)
  · exact by_contra fun hform => hdiff (decodeRecord_setting_irrelevant hform addr)

end Sys2Proof.Machine

/-! PROOFS. Texts and mnemonics at the default parameters (R63, R65), and runs of several decodes (R73, R205, R208). -/

namespace Sys2Proof.Machine

/-- The block's records at the default parameters are those of the instructions, which are all good (R53, R63, R65). -/
theorem goodRecord_decodeRecord (code addr : Word) (simplified : Bool) :
    GoodRecord (decodeRecord defaultConfig code addr simplified) := by
  obtain ⟨record, hexec, hgood⟩ := exec_is_transaction (decodeWord code simplified)
  have heq := record_eq_of_transact_eq
    (fun s => (hexec s).symm.trans ((readsAs_decodeWord code simplified).exec_eq s)) addr
  exact heq ▸ hgood addr

/-- What R63 asks of a text, taken apart. -/
theorem textOk_iff {t : String} :
    textOk t = true ↔ 3 ≤ t.length ∧ t.length ≤ 24 ∧ ∃ c rest, t.toList = c :: rest ∧ 'a' ≤ c ∧ c ≤ 'z' := by
  unfold textOk
  cases t.toList <;> simp [and_assoc]

/-- Settles O51: every record is a good one, and the bounds are those of `nop` and of the longest `addi`. -/
theorem textsAreThreeToTwentyFourCharacters : Obligations.TextsAreThreeToTwentyFourCharacters := by
  refine ⟨fun code addr simplified => textOk_iff.1 (goodRecord_decodeRecord code addr simplified).text,
    fun addr => ?ends⟩
  case ends =>
    obtain ⟨hnop, _⟩ := nopIsTheOneWordWithNoOperands defaultConfig defaultConfig_ok
    refine ⟨by rw [(hnop addr).2]; decide, ?_⟩
    rw [decodeText, decodeRecord_of_addi (by decide)]
    decide

/-- A mnemonic fits its column, with two that fill it (R65). -/
def FitsColumn (m : String) : Prop :=
  m.length ≤ 8 ∧ (m.length = 8 → m = "subfzeo." ∨ m = "subfmeo.")

theorem fitsColumn_of_length_lt {m : String} (h : m.length < 8) : FitsColumn m :=
  ⟨h.le, fun heq => absurd heq h.ne⟩

/-- The default ROMs' mnemonics with their suffixes; six letters and both suffixes fill the column (R17, R60). -/
theorem fitsColumn_subtract {k : Nat} {m : String} (h : rom defaultSubRom k = some m) (oe rc : Bool) :
    FitsColumn (m ++ suffix oe rc) := by
  have hall : ∀ e ∈ defaultSubRom, ∀ m ∈ e, ∀ oe rc, (m ++ suffix oe rc).length ≤ 8 ∧
      ((m ++ suffix oe rc).length = 8 → m ++ suffix oe rc = "subfzeo." ∨ m ++ suffix oe rc = "subfmeo.") := by decide
  exact hall _ (mem_of_rom_eq_some h) m rfl oe rc

theorem fitsColumn_logical {k : Nat} {m : String} (h : rom defaultLogicRom k = some m) (rc : Bool) :
    FitsColumn (m ++ suffix false rc) := by
  have hall : ∀ e ∈ defaultLogicRom, ∀ m ∈ e, ∀ rc, (m ++ suffix false rc).length < 8 := by decide
  exact fitsColumn_of_length_lt (hall _ (mem_of_rom_eq_some h) m rfl rc)

theorem fitsColumn_loadStore {k : Nat} {m : String} (h : rom defaultLdstRom k = some m) : FitsColumn m := by
  have hall : ∀ e ∈ defaultLdstRom, ∀ m ∈ e, m.length < 8 := by decide
  exact fitsColumn_of_length_lt (hall _ (mem_of_rom_eq_some h) m rfl)

theorem fitsColumn_illegalRecord (code : Word) : FitsColumn (illegalRecord code).mnem :=
  fitsColumn_of_length_lt (show "dc.l".length < 8 by decide)

theorem fitsColumn_handleSubtract (code : Word) : FitsColumn (handleSubtract defaultConfig code).mnem := by
  unfold handleSubtract
  split
  · exact fitsColumn_illegalRecord code
  · next m hrom =>
    have hm := fitsColumn_subtract hrom (oeOf code) (rcOf code)
    dsimp only
    split_ifs
    · exact fitsColumn_illegalRecord code
    · exact hm
    · exact hm

theorem fitsColumn_handleLogical (code : Word) (simplified : Bool) :
    FitsColumn (handleLogical defaultConfig code simplified).mnem := by
  unfold handleLogical
  split
  · show FitsColumn (if rcOf code then "mr." else "mr")
    split_ifs <;> exact fitsColumn_of_length_lt (by decide)
  · split
    · exact fitsColumn_illegalRecord code
    · next m hrom => exact fitsColumn_logical hrom (rcOf code)

theorem fitsColumn_handleLoadStore (code : Word) : FitsColumn (handleLoadStore defaultConfig code).mnem := by
  unfold handleLoadStore
  cases hrom : rom defaultConfig.ldstRom (idx5Of code).toNat with
  | none =>
    dsimp only
    split_ifs <;> exact fitsColumn_illegalRecord code
  | some m =>
    have hm : FitsColumn m := fitsColumn_loadStore hrom
    dsimp only
    split_ifs
    · exact fitsColumn_illegalRecord code
    · exact fitsColumn_illegalRecord code
    · exact hm
    · exact hm

theorem fitsColumn_handleTierB (code : Word) : FitsColumn (handleTierB code).mnem := by
  unfold handleTierB handleTw
  split_ifs
  · exact fitsColumn_illegalRecord code
  · exact fitsColumn_of_length_lt (show "tw".length < 8 by decide)
  · exact fitsColumn_illegalRecord code

theorem fitsColumn_handleExt (code : Word) (simplified : Bool) :
    FitsColumn (handleExt defaultConfig code simplified).mnem := by
  unfold handleExt
  split_ifs
  · exact fitsColumn_handleSubtract code
  · exact fitsColumn_handleLogical code simplified
  · exact fitsColumn_handleLoadStore code
  · exact fitsColumn_handleTierB code

theorem fitsColumn_handleAddi (code : Word) (simplified : Bool) : FitsColumn (handleAddi code simplified).mnem := by
  unfold handleAddi
  dsimp only
  split_ifs
  · exact fitsColumn_of_length_lt (show "li".length < 8 by decide)
  · exact fitsColumn_of_length_lt (show "addi".length < 8 by decide)

theorem fitsColumn_handleOri (code : Word) (simplified : Bool) : FitsColumn (handleOri code simplified).mnem := by
  obtain ⟨_, heq⟩ | ⟨_, heq⟩ | ⟨_, heq⟩ := handleOri_cases code simplified <;> rw [heq]
  · exact fitsColumn_of_length_lt (show "nop".length < 8 by decide)
  · exact fitsColumn_of_length_lt (show "mr".length < 8 by decide)
  · exact fitsColumn_of_length_lt (show "ori".length < 8 by decide)

theorem fitsColumn_branchMnemonic (aa lk : Bool) : FitsColumn (branchMnemonic aa lk) :=
  fitsColumn_of_length_lt ((by decide : ∀ aa lk : Bool, (branchMnemonic aa lk).length < 8) aa lk)

/-- Settles O52, handler by handler. -/
theorem mnemonicsFitTheColumn : Obligations.MnemonicsFitTheColumn := by
  intro code addr simplified
  show FitsColumn _
  unfold decodeRecord
  cases dispatch defaultConfig (opcOf code) with
  | addi => exact fitsColumn_handleAddi code simplified
  | ori => exact fitsColumn_handleOri code simplified
  | branch => exact fitsColumn_branchMnemonic (aaOf code) (lkOf code)
  | ext => exact fitsColumn_handleExt code simplified
  | illegal => exact fitsColumn_illegalRecord code

/-- The cursor after one decode and `n` more. -/
theorem cursor_after_succ (a : Word) (n : Nat) :
    a + 4 + BitVec.ofNat 32 (4 * n) = a + BitVec.ofNat 32 (4 * (n + 1)) := by
  rw [Nat.mul_succ, Nat.add_comm, BitVec.ofNat_add, ← BitVec.add_assoc]
  rfl

/-- A run of decodes with no `LoadAddr` between advances the cursor by four for each (R73). -/
theorem run_decodes (rest : List HostAction) : ∀ (actions : List HostAction) (s : State) (a : Word), s.addr = some a →
    s.pending = actions ++ rest → (∀ x ∈ actions, x.isDecode = true) →
    ∃ t newTexts, Host.Core.run core actions.length s = .next t ∧
      t.addr = some (a + BitVec.ofNat 32 (4 * actions.length)) ∧ t.pending = rest ∧
      t.texts = s.texts ++ newTexts ∧ newTexts.length = actions.length
  | [], s, a, ha, hp, _ => ⟨s, [], rfl, by simpa using ha, hp, by simp, rfl⟩
  | .loadAddr b :: _, _, _, _, _, hdecode => absurd (hdecode (.loadAddr b) List.mem_cons_self) Bool.false_ne_true
  | .decode code simplified :: actions, s, a, ha, hp, hdecode => by
    obtain ⟨d, _, hstep⟩ := step_decode_next ha hp
    obtain ⟨t, newTexts, hrun, haddr, hpending, htexts, hlength⟩ :=
      run_decodes rest actions ((s.withPending (actions ++ rest)).delivered a d) (a + 4) rfl rfl
        fun x hx => hdecode x (List.mem_cons_of_mem _ hx)
    refine ⟨t, render d :: newTexts, (run_succ_of_step _ hstep).trans hrun, ?_, hpending, ?_, ?_⟩
    · rw [haddr, cursor_after_succ, List.length_cons]
    · simpa using htexts
    · rw [List.length_cons, List.length_cons, hlength]

/-- Settles O53: the run of decodes, and the count that the cursor's advance gives back. -/
theorem cursorAdvancesByFourPerDecode : Obligations.CursorAdvancesByFourPerDecode := by
  intro actions rest s a ha hp hdecode
  obtain ⟨t, newTexts, hrun, haddr, hpending, htexts, hlength⟩ := run_decodes rest actions s a ha hp hdecode
  refine ⟨t, newTexts, hrun, haddr, hpending, htexts, hlength, ?count⟩
  case count =>
    rw [BitVec.add_comm a, BitVec.add_sub_cancel, BitVec.toNat_ofNat]
    omega

/-- A word of the illegal path delivers its own record, whatever the cursor holds (R76, R205). -/
theorem decodesTo_illegalRecord {code : Word} {simplified : Bool}
    (h : illegalCause defaultConfig code simplified ≠ none) :
    DecodesTo code simplified fun _ => illegalRecord code := by
  have hexec : ∀ s, exec (decodeWord code simplified) s = transact (fun _ => illegalRecord code) s := by
    rw [decodeWord_of_illegalCause (Option.isSome_iff_ne_none.2 h)]
    exact fun _ => rfl
  intro s a rest ha hp
  exact decodesTo_of_exec hexec ha hp

/-- Settles O55: one step for each word, and each leaves the state of a decode of `ILLEGAL` of that word. -/
theorem illegalWordsLeaveNoTrace : Obligations.IllegalWordsLeaveNoTrace := by
  intro words last rest
  induction words with
  | nil =>
    intro s a ha hp hill
    have hstep := decodesTo_illegalRecord (hill last List.mem_cons_self) ha hp
    refine (run_succ_of_step 0 hstep).trans (congrArg Host.Outcome.next ?_)
    rw [List.nil_append, List.map_singleton, ← render_illegalRecord]
    rfl
  | cons w words ih =>
    intro s a ha hp hill
    have hstep := decodesTo_illegalRecord (hill w List.mem_cons_self) ha hp
    have hrun := ih ((s.withPending ((words ++ [last]).map (fun w => HostAction.decode w.1 w.2) ++ rest)).delivered a
      (illegalRecord w.1)) (a + 4) rfl rfl fun w' hw' => hill w' (List.mem_cons_of_mem _ hw')
    refine (run_succ_of_step _ hstep).trans (hrun.trans (congrArg Host.Outcome.next ?_))
    rw [cursor_after_succ, State.delivered_texts, State.withPending_texts, render_illegalRecord, List.append_assoc]
    rfl

end Sys2Proof.Machine

/-! PROOFS. The sign-extension logic bit by bit (R50), the text primitives (R55 to R59), and the numerals read back. -/

namespace Sys2Proof.Machine

/-- Settles O45: the two cases of bit `p`; above bit 31 there is nothing to set. -/
theorem signExtensionBitByBit : Obligations.SignExtensionBitByBit := by
  have hbits (v : Word) (p : Fin 32) (i : Nat) (hi : i < 32) :
      (signExtend v p).getLsbD i = (v.getLsbD i || (decide (p.val < i) && v.getLsbD p)) := by
    cases hp : v.getLsbD p with
    | false => rw [signExtend_of_clear hp, Bool.and_false, Bool.or_false]
    | true => rw [signExtend_getLsbD_of_set hp hi, Bool.and_true]
  refine ⟨hbits, fun v => BitVec.eq_of_getLsbD_eq fun i hi => ?_⟩
  have hnot : ¬(31 : Fin 32).val < i := not_lt.2 (Nat.le_of_lt_succ hi)
  rw [hbits v 31 i hi, decide_eq_false hnot, Bool.false_and, Bool.or_false]

/-- Settles O46: the two cases of `render`, the two of `joinOps`, and the kinds of `renderOp`. -/
theorem renderingIsMnemonicColumnAndOperands : Obligations.RenderingIsMnemonicColumnAndOperands :=
  ⟨fun _ _ _ _ _ => ⟨rfl, rfl, rfl, rfl⟩, fun _ _ _ => ⟨rfl, rfl, rfl, rfl, rfl, rfl⟩⟩

/-- The characters of a padded text (R57). -/
theorem toList_pad8 (m : String) : (pad8 m).toList = m.toList ++ List.replicate (8 - m.length) ' ' := by
  rw [pad8, String.toList_append, String.toList_ofList, mnemonicColumn]

/-- Settles O47: the blanks are those that the column still holds, and a full column holds none. -/
theorem paddingFillsTheColumnAndNeverTruncates : Obligations.PaddingFillsTheColumnAndNeverTruncates := by
  refine fun m => ⟨toList_pad8 m, length_pad8 m, fun hfull => String.toList_inj.1 ?_⟩
  rw [toList_pad8, Nat.sub_eq_zero_of_le hfull, List.replicate_zero, List.append_nil]

/-- The number that a numeral of this base stands for, its digits those of the model's alphabet. -/
def readNumeral (base : Nat) (t : String) : Nat :=
  t.toList.foldl (fun value c => base * value + hexDigits.idxOf c) 0

/-- A digit's place in the alphabet is its value (R55). -/
theorem idxOf_hexDigit : ∀ d : BitVec 4, hexDigits.idxOf (hexDigit d) = d.toNat := by decide

theorem readNumeral_hex4 (v : BitVec 16) : readNumeral 16 (hex4 v) = v.toNat := by
  have hlt := v.isLt
  simp only [readNumeral, hex4, String.toList_ofList, List.foldl_cons, List.foldl_nil, idxOf_hexDigit,
    BitVec.extractLsb'_toNat, Nat.shiftRight_eq_div_pow]
  omega

theorem readNumeral_hex8 (v : Word) : readNumeral 16 (hex8 v) = v.toNat := by
  have hlt := v.isLt
  simp only [readNumeral, hex8, String.toList_ofList, List.foldl_cons, List.foldl_nil, idxOf_hexDigit,
    BitVec.extractLsb'_toNat, Nat.shiftRight_eq_div_pow]
  omega

theorem readNumeral_dec : ∀ n : RegNum, readNumeral 10 (dec n) = n.toNat := by decide

theorem hex8_injective {v w : Word} (h : hex8 v = hex8 w) : v = w :=
  BitVec.eq_of_toNat_eq (by rw [← readNumeral_hex8, h, readNumeral_hex8])

/-- Settles O49: each rendering is read back by the numeral's value. -/
theorem numeralsLoseNoInformation : Obligations.NumeralsLoseNoInformation := by
  refine ⟨fun v w h => BitVec.eq_of_toNat_eq ?_, fun v w => hex8_injective, fun m n h => BitVec.eq_of_toNat_eq ?_,
    fun v w h => ?illegal⟩
  · rw [← readNumeral_hex4, h, readNumeral_hex4]
  · rw [← readNumeral_dec, h, readNumeral_dec]
  case illegal =>
    rw [render_illegalRecord, render_illegalRecord, String.append_right_inj] at h
    exact hex8_injective h

end Sys2Proof.Machine

/-! PROOFS. Several instances (R27, R211): a step of one touches its own place only. -/

namespace Sys2Proof.Machine

/-- All that a step at one place can do to the system when it answers a next one. -/
theorem stepAt_eq_next_iff {y z : System} {k : Nat} :
    y.stepAt k = .next z ↔ (y.instances[k]? = none ∧ z = y) ∨
      ∃ s t, y.instances[k]? = some s ∧ step s = .next t ∧ z = { instances := y.instances.set k t } := by
  unfold System.stepAt
  cases y.instances[k]? with
  | none => simp [eq_comm]
  | some s => cases hstep : step s <;> simp [eq_comm, hstep]

/-- The other instances stay as they are (R27 (d)). -/
theorem stepAt_getElem?_of_ne {y z : System} {j k : Nat} (h : y.stepAt j = .next z) (hne : j ≠ k) :
    z.instances[k]? = y.instances[k]? := by
  obtain ⟨_, rfl⟩ | ⟨_, t, _, _, rfl⟩ := stepAt_eq_next_iff.1 h
  · rfl
  · exact List.getElem?_set_ne hne

/-- Settles O56: a step reads and writes its own place, and writes at two places commute. -/
theorem instancesShareNoState : Obligations.InstancesShareNoState := by
  refine ⟨fun y z j k hstep hne => stepAt_getElem?_of_ne hstep hne, fun y yj yk j k hne hj hk => ?commute⟩
  case commute =>
    have hreadK := stepAt_getElem?_of_ne hj hne
    have hreadJ := stepAt_getElem?_of_ne hk hne.symm
    obtain ⟨hnoneJ, rfl⟩ | ⟨s, t, hs, hstep, rfl⟩ := stepAt_eq_next_iff.1 hj
    · exact ⟨yk, hk, stepAt_eq_next_iff.2 (.inl ⟨hreadJ.trans hnoneJ, rfl⟩)⟩
    obtain ⟨hnoneK, rfl⟩ | ⟨s', t', hs', hstep', rfl⟩ := stepAt_eq_next_iff.1 hk
    · exact ⟨_, stepAt_eq_next_iff.2 (.inl ⟨hreadK.trans hnoneK, rfl⟩), hj⟩
    refine ⟨{ instances := (y.instances.set j t).set k t' },
      stepAt_eq_next_iff.2 (.inr ⟨s', t', hreadK.trans hs', hstep', rfl⟩),
      stepAt_eq_next_iff.2 (.inr ⟨s, t, hreadJ.trans hs, hstep, ?_⟩)⟩
    rw [List.set_comm t t' hne]

end Sys2Proof.Machine

/-! PROOFS. The packed record (R65): its mnemonic field is eight bytes, and each field determines its part of the record. -/

namespace Sys2Proof.Machine

/-- The byte that the packing has for place `k` of a mnemonic: the character's code, or zero beyond the end (R65). -/
def packedChar (m : String) (k : Nat) : Nat := (m.toList[k]?.map Char.toNat).getD 0

/-- A mnemonic of ASCII characters other than the null character. -/
def IsAscii (m : String) : Prop := ∀ c ∈ m.toList, 0 < c.toNat ∧ c.toNat < 128

theorem packedChar_lt {m : String} (h : IsAscii m) (k : Nat) : packedChar m k < 2 ^ 8 := by
  unfold packedChar
  cases hk : m.toList[k]? with
  | none => decide
  | some c => exact (h c (List.mem_of_getElem? hk)).2.trans (by decide)

/-- The first `n` of the bytes `f`, the first one the most significant. -/
def packBytes (f : Nat → Nat) (n : Nat) : BitVec 64 :=
  (List.range n).foldl (fun acc k => acc <<< 8 ||| BitVec.ofNat 64 (f k)) 0

theorem packMnemonic_eq (m : String) : packMnemonic m = packBytes (packedChar m) 8 := rfl

theorem packBytes_succ (f : Nat → Nat) (n : Nat) :
    packBytes f (n + 1) = packBytes f n <<< 8 ||| BitVec.ofNat 64 (f n) := by
  rw [packBytes, List.range_succ, List.foldl_append]
  rfl

/-- Shifting a byte in is arithmetic, as long as nothing is shifted out. -/
theorem toNat_shift_byte {acc : BitVec 64} {b : Nat} (hacc : acc.toNat < 2 ^ 56) (hb : b < 2 ^ 8) :
    (acc <<< 8 ||| BitVec.ofNat 64 b).toNat = 2 ^ 8 * acc.toNat + b := by
  rw [BitVec.toNat_or, BitVec.toNat_shiftLeft, BitVec.toNat_ofNat, Nat.mod_eq_of_lt (by omega : b < 2 ^ 64),
    Nat.shiftLeft_eq, Nat.mod_eq_of_lt (by omega), Nat.mul_comm, ← Nat.two_pow_add_eq_or_of_lt hb]

/-- Up to eight bytes no bit is shifted out. -/
theorem toNat_packBytes_lt {f : Nat → Nat} (hf : ∀ k, f k < 2 ^ 8) :
    ∀ n ≤ 8, (packBytes f n).toNat < 2 ^ (8 * n)
  | 0, _ => Nat.one_pos
  | n + 1, hn => by
    have ih := toNat_packBytes_lt hf n (by omega)
    have hroom : (packBytes f n).toNat < 2 ^ 56 := ih.trans_le (Nat.pow_le_pow_right (by decide) (by omega))
    have hbyte := hf n
    rw [packBytes_succ, toNat_shift_byte hroom hbyte, Nat.mul_succ, Nat.pow_add]
    omega

theorem toNat_packBytes_succ {f : Nat → Nat} (hf : ∀ k, f k < 2 ^ 8) {n : Nat} (hn : n < 8) :
    (packBytes f (n + 1)).toNat = 2 ^ 8 * (packBytes f n).toNat + f n := by
  have hroom : (packBytes f n).toNat < 2 ^ 56 :=
    (toNat_packBytes_lt hf n hn.le).trans_le (Nat.pow_le_pow_right (by decide) (by omega))
  rw [packBytes_succ, toNat_shift_byte hroom (hf n)]

/-- The packed bytes determine each byte, the last one first. -/
theorem packBytes_injective {f g : Nat → Nat} (hf : ∀ k, f k < 2 ^ 8) (hg : ∀ k, g k < 2 ^ 8) :
    ∀ n ≤ 8, packBytes f n = packBytes g n → ∀ k < n, f k = g k
  | 0, _, _, _, hk => absurd hk (Nat.not_lt_zero _)
  | n + 1, hn, heq, k, hk => by
    have hvalue := congrArg BitVec.toNat heq
    rw [toNat_packBytes_succ hf hn, toNat_packBytes_succ hg hn] at hvalue
    have hfn := hf n
    have hgn := hg n
    obtain hlast | hearlier := Nat.eq_or_lt_of_le (Nat.le_of_lt_succ hk)
    · subst hlast
      omega
    · exact packBytes_injective hf hg n (by omega) (BitVec.eq_of_toNat_eq (by omega)) k hearlier

/-- The bytes of an ASCII mnemonic determine it: a zero byte is no character, so it marks the end. -/
theorem getElem?_eq_of_packedChar_eq {m m' : String} (h : IsAscii m) (h' : IsAscii m') {k : Nat}
    (heq : packedChar m k = packedChar m' k) : m.toList[k]? = m'.toList[k]? := by
  unfold packedChar at heq
  cases hk : m.toList[k]? with
  | none =>
    cases hk' : m'.toList[k]? with
    | none => rfl
    | some c' =>
      obtain ⟨hpos, _⟩ := h' c' (List.mem_of_getElem? hk')
      simp [hk, hk', hpos.ne] at heq
  | some c =>
    obtain ⟨hpos, _⟩ := h c (List.mem_of_getElem? hk)
    cases hk' : m'.toList[k]? with
    | none => simp [hk, hk', hpos.ne'] at heq
    | some c' =>
      simp only [hk, hk', Option.map_some, Option.getD_some] at heq
      rw [Char.toNat_inj.1 heq]

/-- Mnemonics that fit the field are determined by it (R65). -/
theorem packMnemonic_injective {m m' : String} (hlen : m.length ≤ 8) (hlen' : m'.length ≤ 8) (h : IsAscii m)
    (h' : IsAscii m') (heq : packMnemonic m = packMnemonic m') : m = m' := by
  refine String.toList_inj.1 (List.ext_getElem? fun k => ?_)
  by_cases hk : k < 8
  · exact getElem?_eq_of_packedChar_eq h h'
      (packBytes_injective (packedChar_lt h) (packedChar_lt h') 8 le_rfl heq k hk)
  · rw [List.getElem?_eq_none (by rw [String.length_toList]; omega),
      List.getElem?_eq_none (by rw [String.length_toList]; omega)]

/-- The operand that a slot in use stands for, by its kind (R65). -/
def unpackOperand (p : PackedOperand) : Operand :=
  match p.kind.toNat with
  | 0 => .gpr (p.value.setWidth 5)
  | 1 => .fpr (p.value.setWidth 5)
  | 2 => .imm16 (p.value.setWidth 16)
  | 3 => .addr32 p.value
  | 4 => .raw32 p.value
  | _ => .trapOn (p.value.setWidth 5)

/-- The six kinds are told apart, and the 32 bits of a slot cut no value (R65). -/
theorem unpackOperand_packOperand (x : Operand) : unpackOperand (packOperand x) = x := by
  cases x <;> simp [packOperand, unpackOperand]

theorem packOperand_injective {x y : Operand} (h : packOperand x = packOperand y) : x = y := by
  rw [← unpackOperand_packOperand x, h, unpackOperand_packOperand]

/-- The number of operands and the slots in use determine the operands; two bits hold every number up to three (R65). -/
theorem ops_eq_of_pack_eq {xs ys : List Operand} (hx : xs.length ≤ 3) (hy : ys.length ≤ 3)
    (hnops : BitVec.ofNat 2 xs.length = BitVec.ofNat 2 ys.length)
    (hslot : ∀ k < 3, (xs[k]?.map packOperand).getD emptySlot = (ys[k]?.map packOperand).getD emptySlot) : xs = ys := by
  have hlen : xs.length = ys.length := by
    have hvalue := congrArg BitVec.toNat hnops
    rw [BitVec.toNat_ofNat, BitVec.toNat_ofNat] at hvalue
    omega
  refine List.ext_getElem hlen fun k hk hk' => packOperand_injective ?_
  simpa [hk, hk'] using hslot k (by omega)

/-- Settles O57: each field of the packed record determines its part of the record. -/
theorem packingLosesNoInformation : Obligations.PackingLosesNoInformation := by
  rintro ⟨illegal, mnem, ops⟩ ⟨illegal', mnem', ops'⟩ hmnem hmnem' hops hops' hascii hascii' heq
  simp only [pack, PackedRecord.mk.injEq] at heq
  obtain ⟨rfl, hpackedMnem, hnops, hslot0, hslot1, hslot2⟩ := heq
  have hslot : ∀ k < 3, (ops[k]?.map packOperand).getD emptySlot = (ops'[k]?.map packOperand).getD emptySlot
    | 0, _ => hslot0
    | 1, _ => hslot1
    | 2, _ => hslot2
  have hmnems : mnem = mnem' := packMnemonic_injective hmnem hmnem' hascii hascii' hpackedMnem
  have hopsEq : ops = ops' := ops_eq_of_pack_eq hops hops' hnops hslot
  rw [hmnems, hopsEq]

end Sys2Proof.Machine

/-! PROOFS. The counts of accepted extended opcodes at the default ROMs (95_test_vectors.md section 2.12): the low eleven
bits of a word are a five-bit index above 64 values of selector and record bit, and each family accepts its selector where
its ROM has an entry at the index. -/

namespace Sys2Proof.Machine

/-- The word of the extended group with `rs = ra = 0`, `rb = b`, the index `i` and `r` in its low six bits. -/
def lowWord (b i r : Nat) : Word := BitVec.ofNat 32 (31 * 2 ^ 26 + b * 2 ^ 11 + 64 * i + r)

section lowWord
variable {b i r : Nat} (hb : b < 2) (hi : i < 32) (hr : r < 64)
include hb hi hr

theorem toNat_lowWord : (lowWord b i r).toNat = 31 * 2 ^ 26 + b * 2 ^ 11 + 64 * i + r := by
  rw [lowWord, BitVec.toNat_ofNat]
  omega

/-- A field of the word by its place and width. -/
theorem toNat_extract_lowWord (start len : Nat) : ((lowWord b i r).extractLsb' start len).toNat =
    (31 * 2 ^ 26 + b * 2 ^ 11 + 64 * i + r) / 2 ^ start % 2 ^ len := by
  rw [BitVec.extractLsb'_toNat, toNat_lowWord hb hi hr, Nat.shiftRight_eq_div_pow]

theorem opcOf_lowWord : opcOf (lowWord b i r) = opcExt := by
  rw [← BitVec.toNat_inj, opcOf, toNat_extract_lowWord hb hi hr]
  change _ = 31
  omega

theorem selOf_lowWord : (selOf (lowWord b i r)).toNat = r / 2 := by
  rw [selOf, toNat_extract_lowWord hb hi hr]
  omega

theorem idx4Of_lowWord : (idx4Of (lowWord b i r)).toNat = i % 16 := by
  rw [idx4Of, toNat_extract_lowWord hb hi hr]
  omega

theorem idx5Of_lowWord : (idx5Of (lowWord b i r)).toNat = i := by
  rw [idx5Of, toNat_extract_lowWord hb hi hr]
  omega

theorem rbOf_lowWord : (rbOf (lowWord b i r)).toNat = b := by
  rw [rbOf, toNat_extract_lowWord hb hi hr]
  omega

theorem extOpcOf_lowWord : (extOpcOf (lowWord b i r)).toNat = 32 * i + r / 2 := by
  rw [extOpcOf, toNat_extract_lowWord hb hi hr]
  omega

theorem rcOf_lowWord : rcOf (lowWord b i r) = (r % 2 == 1) := by
  rw [rcOf, BitVec.getLsbD, toNat_lowWord hb hi hr, Nat.testBit_zero, beq_eq_decide]
  congr 1
  exact propext (by omega)

end lowWord

/-- Whether the subtract family accepts the index: an entry, and `rb = 0` at a two-operand index (IL2, IL3). -/
def subAccepts (b i : Nat) : Bool :=
  (rom defaultSubRom (i % 16)).isSome && (b == 0 || !twoOperandIndex (BitVec.ofNat 4 i))

/-- Which of the 64 words of one index are accepted, from what the families say of the index (R101, R102). -/
def blockAccepts (sub logic ldst tw : Bool) (r : Nat) : Bool :=
  if r / 2 = selSubtract.toNat then sub
  else if r / 2 = selLogical.toNat then logic
  else if r / 2 = selLoadStore.toNat then r % 2 == 0 && ldst
  else tw && r == 8

section families
variable {b i r : Nat} (hb : b < 2) (hi : i < 32) (hr : r < 64)
include hb hi hr

theorem illegal_subtract_lowWord :
    (handleSubtract defaultConfig (lowWord b i r)).illegal = !subAccepts b i := by
  have hidx : idx4Of (lowWord b i r) = BitVec.ofNat 4 i := by
    rw [← BitVec.toNat_inj, idx4Of_lowWord hb hi hr, BitVec.toNat_ofNat]
  have hrb : rbOf (lowWord b i r) = 0 ↔ b = 0 := by
    rw [← BitVec.toNat_inj, rbOf_lowWord hb hi hr]
    rfl
  rw [Bool.eq_iff_iff, (illegalExactlyWhen_handleSubtract _ _).illegal_iff, ne_eq, hrb, idx4Of_lowWord hb hi hr, hidx]
  simp [subAccepts, defaultConfig, and_comm]

theorem illegal_logical_lowWord :
    (handleLogical defaultConfig (lowWord b i r) true).illegal = !(rom defaultLogicRom i).isSome := by
  have hidx := idx5Of_lowWord hb hi hr
  have hor : idx5Of (lowWord b i r) = idxOr → rom defaultLogicRom i = some "or" := fun h => by
    rw [← hidx, h]
    rfl
  rw [Bool.eq_iff_iff, (illegalExactlyWhen_handleLogical _ _ _).illegal_iff, hidx]
  simp only [defaultConfig, Bool.not_eq_true', Option.isSome_eq_false_iff, Option.isNone_iff_eq_none,
    and_iff_right_iff_imp]
  rintro hnone ⟨h13, _⟩
  rw [hor h13] at hnone
  cases hnone

theorem illegal_loadStore_lowWord : (handleLoadStore defaultConfig (lowWord b i r)).illegal =
    !(r % 2 == 0 && (rom defaultLdstRom i).isSome) := by
  have hend : ldstLastIndex < i → rom defaultLdstRom i = none := fun h => rom_eq_none_of_length_le h
  rw [Bool.eq_iff_iff, (illegalExactlyWhen_handleLoadStore _ _).illegal_iff, idx5Of_lowWord hb hi hr,
    rcOf_lowWord hb hi hr]
  simp only [defaultConfig, beq_iff_eq, Bool.not_eq_true', Bool.and_eq_false_iff, beq_eq_false_iff_ne, ne_eq,
    Nat.mod_two_not_eq_zero, Option.isSome_eq_false_iff, Option.isNone_iff_eq_none]
  exact or_iff_right_of_imp fun h => .inr (hend h)

theorem illegal_tierB_lowWord : (handleTierB (lowWord b i r)).illegal = !(i == 0 && r == 8) := by
  have hext : extOpcOf (lowWord b i r) = extOpcTw ↔ 32 * i + r / 2 = 4 := by
    rw [← BitVec.toNat_inj, extOpcOf_lowWord hb hi hr]
    rfl
  rw [Bool.eq_iff_iff, (illegalExactlyWhen_handleTierB _).illegal_iff, ne_eq, hext, rcOf_lowWord hb hi hr]
  simp only [beq_iff_eq, Bool.not_eq_true', Bool.and_eq_false_iff, beq_eq_false_iff_ne, ne_eq]
  omega

/-- The word is accepted as its family says, by the selector (R101). -/
theorem accepted_lowWord : (!(decodeRecord defaultConfig (lowWord b i r) 0 true).illegal) =
    blockAccepts (subAccepts b i) (rom defaultLogicRom i).isSome (rom defaultLdstRom i).isSome (i == 0) r := by
  have hsel (v : BitVec 5) : selOf (lowWord b i r) = v ↔ r / 2 = v.toNat := by
    rw [← BitVec.toNat_inj, selOf_lowWord hb hi hr]
  rw [decodeRecord_of_ext defaultFacts (opcOf_lowWord hb hi hr), handleExt, blockAccepts]
  simp only [hsel]
  split_ifs
  · rw [illegal_subtract_lowWord hb hi hr, Bool.not_not]
  · rw [illegal_logical_lowWord hb hi hr, Bool.not_not]
  · rw [illegal_loadStore_lowWord hb hi hr, Bool.not_not]
  · rw [illegal_tierB_lowWord hb hi hr, Bool.not_not]

end families

/-- A count over consecutive blocks is the sum of the blocks' counts. -/
theorem countP_range_mul (p : Nat → Bool) (k m : Nat) : (List.range (k * m)).countP p =
    ((List.range m).map fun i => (List.range k).countP fun r => p (k * i + r)).sum := by
  induction m with
  | zero => rfl
  | succ m ih =>
    rw [Nat.mul_succ, List.range_add, List.countP_append, List.countP_map, ih, List.range_succ, List.map_append,
      List.sum_append, List.map_singleton, List.sum_singleton]
    rfl

/-- Over the 64 words of an index the record bit doubles the subtract and logical families only (IL6, IL8). -/
theorem countP_blockAccepts : ∀ sub logic ldst tw : Bool, (List.range 64).countP (blockAccepts sub logic ldst tw) =
    2 * sub.toNat + 2 * logic.toNat + ldst.toNat + tw.toNat := by decide

/-- With `rc = 0` each family has one word. -/
theorem countP_blockAccepts_even : ∀ sub logic ldst tw : Bool,
    ((List.range 32).countP fun e => blockAccepts sub logic ldst tw (2 * e)) =
      sub.toNat + logic.toNat + ldst.toNat + tw.toNat := by decide

/-- The low eleven bits of the statement's words are zero before the number is put there. -/
theorem or_eq_lowWord {b i r : Nat} (hb : b < 2) (hi : i < 32) (hr : r < 64) :
    BitVec.ofNat 32 (31 * 2 ^ 26 + b * 2 ^ 11) ||| BitVec.ofNat 32 (64 * i + r) = lowWord b i r := by
  apply BitVec.eq_of_toNat_eq
  rw [BitVec.toNat_or, toNat_lowWord hb hi hr, BitVec.toNat_ofNat, BitVec.toNat_ofNat,
    Nat.mod_eq_of_lt (by omega : 31 * 2 ^ 26 + b * 2 ^ 11 < 2 ^ 32), Nat.mod_eq_of_lt (by omega : 64 * i + r < 2 ^ 32),
    show 31 * 2 ^ 26 + b * 2 ^ 11 = 2 ^ 11 * (31 * 2 ^ 15 + b) by omega,
    ← Nat.two_pow_add_eq_or_of_lt (by omega : 64 * i + r < 2 ^ 11)]
  omega

/-- The count of accepted words with `rb = b`, as a sum over the indices. -/
theorem countP_accepted {b : Nat} (hb : b < 2) :
    ((List.range 2048).countP fun n => !(decodeRecord defaultConfig
        (BitVec.ofNat 32 (31 * 2 ^ 26 + b * 2 ^ 11) ||| BitVec.ofNat 32 n) 0 true).illegal) =
      ((List.range 32).map fun i => 2 * (subAccepts b i).toNat + 2 * (rom defaultLogicRom i).isSome.toNat +
        (rom defaultLdstRom i).isSome.toNat + (i == 0).toNat).sum := by
  rw [show 2048 = 64 * 32 by decide, countP_range_mul]
  refine congrArg List.sum (List.map_congr_left fun i hi => ?_)
  rw [← countP_blockAccepts]
  refine List.countP_congr fun r hr => ?_
  rw [or_eq_lowWord hb (List.mem_range.1 hi) (List.mem_range.1 hr),
    accepted_lowWord hb (List.mem_range.1 hi) (List.mem_range.1 hr)]

/-- The same with `rc = 0`: every second word. -/
theorem countP_accepted_even {b : Nat} (hb : b < 2) :
    ((List.range 1024).countP fun e => !(decodeRecord defaultConfig
        (BitVec.ofNat 32 (31 * 2 ^ 26 + b * 2 ^ 11) ||| BitVec.ofNat 32 (2 * e)) 0 true).illegal) =
      ((List.range 32).map fun i => (subAccepts b i).toNat + (rom defaultLogicRom i).isSome.toNat +
        (rom defaultLdstRom i).isSome.toNat + (i == 0).toNat).sum := by
  rw [show 1024 = 32 * 32 by decide, countP_range_mul]
  refine congrArg List.sum (List.map_congr_left fun i hi => ?_)
  rw [← countP_blockAccepts_even]
  refine List.countP_congr fun e he => ?_
  have hr : 2 * e < 64 := by
    have := List.mem_range.1 he
    omega
  rw [show 2 * (32 * i + e) = 64 * i + 2 * e by omega, or_eq_lowWord hb (List.mem_range.1 hi) hr,
    accepted_lowWord hb (List.mem_range.1 hi) hr]

/-- Settles O41: the sums over the 32 indices of the default ROMs. -/
theorem acceptedExtendedOpcodesAreCounted : Obligations.AcceptedExtendedOpcodesAreCounted :=
  ⟨(countP_accepted_even (b := 0) (by decide)).trans (by decide),
    (countP_accepted (b := 0) (by decide)).trans (by decide), (countP_accepted (b := 1) (by decide)).trans (by decide)⟩

end Sys2Proof.Machine
